-- ==== Sys2Proof/Word.lean ====
section
/-! DEFINITION. The byte and the node identity, the only two word types of the part. -/

namespace Sys2Proof

/-- One byte of a request frame, a response frame, a link frame or a value. -/
abbrev Byte := BitVec 8

/-- R10, R64, R141: a 32-bit node identity with its 1-byte class. Two identities are equal when both parts are (R148). -/
structure Identity where
  node : BitVec 32
  cls : Byte
deriving DecidableEq, Repr

end Sys2Proof
end

