-- ==== Sys2Proof/Syntax.lean ====
section
/-! DEFINITION. The commands of the part: one constructor per row of spec/opcode_table.json. -/

namespace Sys2Proof

/-- The two request ports (R185). A record's owner is one of them (R2). -/
inductive Port where
  | port0
  | port1
deriving DecidableEq, Repr

/-- The two field segments (00_scope.md). -/
inductive Segment where
  | a
  | b
deriving DecidableEq, Repr

/-- R198: the three ways a Port 1 write transfer ends. -/
inductive TransferEnd where
  | stop
  | repeatedStart
  | busError
deriving DecidableEq, Repr

/-- R194: a Port 0 transaction reaches the part as the falling edge of P0CSn, as all that is then clocked, and as the rising
edge; or whole, where nothing else is taken in between. One that ends before its operation byte is its two edges (log 24). -/
inductive Spi (α : Type) where
  | fall
  | rest (following : α)
  | rise
  | whole (following : α)
deriving DecidableEq, Repr

/-- The commands. A request names the port whose SUBMITTED frame its owner takes (log 2); a segment event names its
segment; `elapsed` is the time, in CLK cycles, that has passed on the segment since the engine's last event (log 4). `line`
is SxRX, one level for each CLK cycle (R56; log 38): from the cycle before the reply window opens, or from the falling edge of
a character, with the level `before` it. -/
inductive Instr where
  -- point requests (chapters 1, 2 and 6)
  | lookup (port : Port)
  | scanFrom (port : Port)
  | read (port : Port)
  | insert (port : Port)
  | amend (port : Port)
  | write (port : Port)
  | resume (port : Port)
  | restart (port : Port)
  | retire (port : Port)
  | purge (port : Port)
  -- station requests (chapter 7)
  | stationQuery (port : Port)
  | stationBar (port : Port)
  | stationUnbar (port : Port)
  -- segment requests (chapter 8)
  | segmentConfigure (port : Port)
  | segmentCommandOn (port : Port)
  | segmentCommandOff (port : Port)
  | segmentCommandHold (port : Port)
  | segmentCommandRelease (port : Port)
  | segmentStatus (port : Port)
  -- attention requests (chapter 9)
  | takeAttention (port : Port)
  | portConfigure (port : Port)
  -- Port 0 transactions (chapter 10): the bytes after the operation byte, or how many are clocked
  | submit (bytes : Spi (List Byte))
  | collect (clocked : Spi Nat)
  | poll (clocked : Spi Nat)
  | unknownOperation (operation : Byte) (clocked : Spi Nat)
  -- Port 1 transfers (chapter 10)
  | writeTransfer (address : BitVec 7) (bytes : List Byte) (ending : TransferEnd)
  | readTransfer (address : BitVec 7) (clocked : Nat)
  -- the cycle (chapter 4)
  | cycleTimerExpiry (segment : Segment)
  | cycleStep (segment : Segment)
  | markEnd (segment : Segment)
  | settlingEnd (segment : Segment)
  -- starts of exchanges (chapters 4 and 8)
  | exchangeStart (segment : Segment) (elapsed : Nat)
  | probeStart (segment : Segment) (elapsed : Nat)
  | scanProbeStart (segment : Segment)
  -- the exchange on the line (chapter 3)
  | requestEnd (segment : Segment)
  | replyWindowExpiry (segment : Segment)
  | replyStart (segment : Segment) (line : List Bool)
  | characterReceived (segment : Segment) (elapsed : Nat) (before : Bool) (line : List Bool)
  | characterGapExpiry (segment : Segment)
  | replyDeadlineExpiry (segment : Segment)
  -- outcomes (chapters 5, 6 and 7)
  | outcomeTaken (segment : Segment)
  | stationOutcome (segment : Segment)
  | probeOutcome (segment : Segment)
  -- the segment's life (chapter 8)
  | settleTimerExpiry (segment : Segment)
  | supplyFault (segment : Segment) (level : Bool)
  | stationTeardown (segment : Segment)
  | recordTeardown (segment : Segment)
  -- reset
  | reset
  | powerOn
  | resetRelease (adr : Bool)
deriving DecidableEq, Repr

end Sys2Proof
end

