-- ==== Sys2Proof/Config.lean ====
section
/-! DEFINITION. What the part fixes: its sizes and its lengths of time. The one free value is the token of a
CANCEL whose record holds none. Times are counted in CLK cycles of 50 ns (00_scope.md, pin CLK: 20 MHz; log 4). -/

namespace Sys2Proof.Config

/-- R1, R18: the Point Table has 256 slots, numbered 0 to 255. -/
def slotCount : Nat := 256

/-- R141: each segment has stations 1 to 30. -/
def stationCount : Nat := 30

/-- R60, R72: the gap G, in bit times. -/
def gapBits : Nat := 20

/-- R70: the longest pause between two characters of a reply, in bit times. -/
def pauseBits : Nat := 20

/-- R55: a character is 10 bit times. -/
def charBits : Nat := 10

/-- 02 and 04 tables: a cycle period unit of 50 µs, in CLK cycles. -/
def cycleUnit : Nat := 1000

/-- R159: a settle time unit of 10 ms, in CLK cycles. -/
def settleUnit : Nat := 200000

/-- R7, R37: the retry budget that a budget argument of 0 selects. -/
def defaultBudget : Nat := 3

/-- R197: the Port 1 target address for each level of ADR. -/
def portAddress (adr : Bool) : BitVec 7 := if adr then 0x4F#7 else 0x4E#7

/-- FREE VALUE (log 30). R50 has an owed CANCEL carry the record's guard token; a record restarted in phase STAGE while its
STAGE was in flight, and then retired, owes a CANCEL and holds no token (R133, R136). Which token that frame carries is not
stated: nothing constrains it but the range of tokens, 1 to 255 (R61). -/
opaque freeToken : Nat → Fin 255

end Sys2Proof.Config
end

