-- ==== Sys2Proof/Machine/State.lean ====
section
/-! DEFINITION. Everything the spec gives the part to hold, as plain data, and its values after reset.
One home for each thing: what two of the spec's names share is held once and read through a view in Ops.lean (log 6). -/

namespace Sys2Proof.Machine

/-! ### The record (chapter 1) -/

/-- R1: the kind of a record. -/
inductive RecordKind where
  | input
  | output
  | guarded
deriving DecidableEq, Repr

/-- R4, R28: the state of a record. -/
inductive RecordState where
  | pending
  | live
  | stale
  | halted
  | retiring
  | retired
deriving DecidableEq, Repr

/-- R4, R101: the conditions, in the order of their codes (R201). -/
inductive Condition where
  | noneYet
  | ok
  | deferred
  | refused
  | checkError
  | frameError
  | wrongStation
  | shortReply
  | longReply
  | exhausted
  | timeout
  | stationAbsent
  | stationSilent
  | stationBarred
  | identityMismatch
  | verifyMismatch
  | segmentDown
  | cancelled
  | cancelUnconfirmed
deriving DecidableEq, Repr

/-- R9, R121: the guard phase; `closed` is the spec's NONE. -/
inductive GuardPhase where
  | closed
  | stage
  | verify
  | commit
  | cancel
deriving DecidableEq, Repr

/-- R10: the notice mode. -/
inductive NoticeMode where
  | state
  | stateValue
deriving DecidableEq, Repr

/-- R12: the eight attention reasons. -/
inductive Reason where
  | arrived
  | fresh
  | stale
  | halted
  | changed
  | applied
  | retired
  | station
deriving DecidableEq, Repr

/-- R12: a set of reasons; a field is true when its reason is in the set. -/
structure ReasonSet where
  arrived : Bool
  fresh : Bool
  stale : Bool
  halted : Bool
  changed : Bool
  applied : Bool
  retired : Bool
  station : Bool
deriving DecidableEq, Repr

/-- R1, and the table of section 1.1: a record. The markers queued, carried and in flight are held in the Segment Engine (R13,
log 6). The delivery fields of an INPUT record stay at their starting values and are reported absent (R8). `missed` is the
model's own, and in no response: the rewritten marker of R112, which stays for a STORE of this OUTPUT record that ended with a
record error or a TIMEOUT, so that its node may have applied a value that a WRITE has replaced (log 31). -/
structure Record where
  tag : Nat
  owner : Port
  shared : Bool
  kind : RecordKind
  segment : Segment
  station : Nat
  object : Nat
  length : Nat
  period : Nat
  phase : Nat
  countdown : Option Nat
  state : RecordState
  condition : Condition
  age : Nat
  freshnessLimit : Option Nat
  retryBudget : Nat
  errorCount : Nat
  sequenceBit : Bool
  dirty : Bool
  rewritten : Bool
  missed : Bool
  noticeMode : NoticeMode
  expected : Option Identity
  value : Option (List Byte)
  staged : Option (List Byte)
  guardPhase : GuardPhase
  guardToken : Option Nat
  tokenCounter : Option Nat
  silentRetire : Bool
  reasons : ReasonSet
deriving DecidableEq, Repr

/-! ### The Segment Engine (chapters 3 and 4) -/

/-- R61: the exchanges. -/
inductive ExchangeKind where
  | fetch
  | store
  | probe
  | stage
  | verify
  | commit
  | cancel
deriving DecidableEq, Repr

/-- R75, R121: an exchange in flight. `slot` is absent for a PROBE, which serves `station`; `owedCancel` says that the
record was RETIRING when the exchange started; `reserveLeft` is what is left of the reservation (R72), in CLK cycles. -/
structure Exchange where
  kind : ExchangeKind
  slot : Option Nat
  station : Nat
  object : Nat
  length : Nat
  token : Option Nat
  owedCancel : Bool
  reserveLeft : Nat
deriving DecidableEq, Repr

/-- R103: the five record errors. -/
inductive RecordError where
  | checkError
  | frameError
  | wrongStation
  | shortReply
  | longReply
deriving DecidableEq, Repr

/-- R73: the result of an exchange, with the bytes of DATA and the identity of IDENT. -/
inductive ExchangeResult where
  | data (payload : List Byte)
  | accept
  | defer
  | refuse
  | ident (identity : Identity)
  | timeout
  | error (which : RecordError)
deriving DecidableEq, Repr

/-- R73: an outcome as handed over. `standing` is absent, except where the Station Directory's part of a teardown was
taken before the Table Controller took the outcome: then it keeps whether the station was PRESENT (R168, log 15). -/
structure ExchangeOutcome where
  exchange : Exchange
  result : ExchangeResult
  standing : Option Bool
deriving DecidableEq, Repr

/-- R96: the state of the engine, with the time left in it (CLK cycles). In WAIT the time left in the reply window; in
REPLY the time left to the reply deadline (R68), the time within which the next character ends (R70) and the bytes
received; in REQUEST the time left of the frame; in SETTLE of the settling time. -/
inductive EngineState where
  | ready
  | request (left : Nat)
  | wait (window : Nat)
  | reply (deadline : Nat) (nextBy : Nat) (received : List Byte)
  | settle (left : Nat)
deriving DecidableEq, Repr

/-- R84: an entry of the active part, with its carried marker. Every entry of the held part is carried. -/
structure QueueEntry where
  slot : Nat
  carried : Bool
deriving DecidableEq, Repr

/-- R75: what a Segment Engine holds. `frame` is the frame on the line while SxDE is asserted (R54); the last three
fields are claims handed over and not yet taken, oldest first (R26, R79, log 7). -/
structure Engine where
  active : List QueueEntry
  held : List Nat
  exchange : Option Exchange
  state : EngineState
  cycleTimer : Option Nat
  cycleNumber : BitVec 16
  cycleClosed : Bool
  probeTaken : Bool
  probeCursor : Nat
  markOwed : Bool
  frame : List Byte
  stepsDue : Nat
  toTable : List ExchangeOutcome
  toStations : List ExchangeOutcome
deriving DecidableEq, Repr

/-! ### The Station Directory (chapter 7) -/

/-- R141: the state of a station. -/
inductive StationState where
  | absent
  | present
  | silent
  | barred
deriving DecidableEq, Repr

/-- R141: a station entry. Its reference count is read from the Point Table (R142, log 6). -/
structure Station where
  state : StationState
  identity : Option Identity
  silence : Nat
deriving DecidableEq, Repr

/-! ### The Segment Controller (chapter 8) -/

/-- R157: the state of a segment. -/
inductive SegmentState where
  | off
  | powering
  | scanning
  | running
  | held
  | fault
deriving DecidableEq, Repr

/-- R159: the bit rates. -/
inductive BitRate where
  | kbit250
  | mbit1
  | mbit2p5
deriving DecidableEq, Repr

/-- R159: the configuration of a segment. -/
structure SegmentConfig where
  bitRate : BitRate
  cyclePeriod : Nat
  replyWindow : Nat
  settleTime : Nat
  silenceLimit : Nat
deriving DecidableEq, Repr

/-- R157: what a Segment Controller holds, with its two pins. The last two fields are the parts of teardowns handed to
the Station Directory (how many) and to the Table Controller (each with the exchange it abandoned) and not yet taken
(R168, log 7). -/
structure Control where
  state : SegmentState
  config : SegmentConfig
  settleTimer : Option Nat
  scanPosition : Option Nat
  powerOut : Bool
  faultIn : Bool
  stationTeardowns : Nat
  recordTeardowns : List (Option Exchange)
deriving DecidableEq, Repr

/-- One segment group (00_scope.md): engine, directory (station n at index n - 1) and controller. -/
structure SegmentUnit where
  engine : Engine
  stations : List Station
  control : Control
deriving DecidableEq, Repr

/-! ### The request ports and the Attention Unit (chapters 9 and 10) -/

/-- R187: a request frame; its argument length is the length of `args`. -/
structure RequestFrame where
  code : Byte
  sequence : Byte
  tag : Nat
  args : List Byte
deriving DecidableEq, Repr

/-- R185: the buffer state of a port with what its buffers hold. -/
inductive Buffer where
  | empty
  | submitted (frame : RequestFrame)
  | answered (response : List Byte)
deriving DecidableEq, Repr

/-- R173, R185: what a port and the Attention Unit hold for one port. -/
structure PortUnit where
  buffer : Buffer
  attention : List Nat
  flagA : Bool
  flagB : Bool
  listEnable : Bool
  segmentEnable : Bool
deriving DecidableEq, Repr

/-- R185, R194: Port 0 has no transaction under way; or P0CSn has fallen and the operation byte is not yet taken; or it is
taken, and P0CSn has not risen yet. -/
inductive Port0Phase where
  | idle
  | begun
  | operating
deriving DecidableEq, Repr

/-! ### The part -/

/-- Everything the part holds. `slots` is the Point Table: none is a FREE slot. `port0Out`, `port1Acks` and `port1Out` record
what the two ports put on their data lines in their last transaction, `port0Out` from the port status byte sampled at the fall
of P0CSn (R194) to the byte that is going out (log 13), and `freeDraws` counts the free tokens drawn (log 30): these four are
the model's own. -/
structure Part where
  slots : List (Option Record)
  port0 : PortUnit
  port1 : PortUnit
  segA : SegmentUnit
  segB : SegmentUnit
  resetLow : Bool
  port1Address : BitVec 7
  port0Phase : Port0Phase
  port0Out : List Byte
  port1Acks : List Bool
  port1Out : List Byte
  freeDraws : Nat
deriving DecidableEq, Repr

/-- The machine: the part, and the commands waiting to be taken, first in, first out (log 1). -/
structure State where
  part : Part
  pending : List Instr
deriving DecidableEq, Repr

/-- No rule of the spec stops the part (INVENTORY, Faults): no command raises a fault, so there is no constructor. -/
inductive Fault where
deriving DecidableEq, Repr

/-- Why a command has no meaning. -/
inductive Refusal where
  /-- Raised by `exec` alone, for a command the model does not give a meaning yet; safe, since nothing is claimed of it. -/
  | notModelled (mnemonic : String)
deriving DecidableEq, Repr

/-! ### Reset values -/

/-- The empty set of reasons. -/
def ReasonSet.empty : ReasonSet := ⟨false, false, false, false, false, false, false, false⟩

/-- R75: the engine after reset. -/
def Engine.reset : Engine where
  active := []
  held := []
  exchange := none
  state := .ready
  cycleTimer := none
  cycleNumber := 0
  cycleClosed := false
  probeTaken := false
  probeCursor := 1
  markOwed := false
  frame := []
  stepsDue := 0
  toTable := []
  toStations := []

/-- R141: a station after reset. -/
def Station.reset : Station := ⟨.absent, none, 0⟩

/-- R159: the defaults. -/
def SegmentConfig.reset : SegmentConfig := ⟨.mbit1, 20, 48, 20, 4⟩

/-- R157: the controller after reset; the level of the input SxFLT is DESIGN CHOICE (log 8). -/
def Control.reset : Control where
  state := .off
  config := .reset
  settleTimer := none
  scanPosition := none
  powerOut := false
  faultIn := false
  stationTeardowns := 0
  recordTeardowns := []

/-- A segment group after reset. -/
def SegmentUnit.reset : SegmentUnit :=
  ⟨.reset, List.replicate Config.stationCount .reset, .reset⟩

/-- R173, R185: a port after reset. -/
def PortUnit.reset : PortUnit := ⟨.empty, [], false, false, false, false⟩

/-- R27, R75, R141, R157, R173, R185: every block in its reset state, RESETn high again. The Port 1 address is the
address for ADR low, and the output records are empty: DESIGN CHOICE (logs 9, 10, 13, 30). -/
def Part.reset : Part where
  slots := List.replicate Config.slotCount none
  port0 := .reset
  port1 := .reset
  segA := .reset
  segB := .reset
  resetLow := false
  port1Address := Config.portAddress false
  port0Phase := .idle
  port0Out := []
  port1Acks := []
  port1Out := []
  freeDraws := 0

/-- The machine right after reset: the part in its reset state and no command waiting. -/
def State.reset : State := ⟨.reset, []⟩

end Sys2Proof.Machine
end

