-- ==== Sys2Proof/Machine/Ops.lean ====
section
/-! DEFINITION. The named reads and writes of the part's state, the views that share a home (log 6), and the operations
on the Due Queue. -/

namespace Sys2Proof.Machine

/-- R26, R27: a claim takes effect whole; while RESETn is low no block takes one. The queue is the sender's (log 1). -/
def State.claim (s : State) (f : Part → Part) : Host.Outcome State Fault Refusal :=
  .next { s with part := if s.part.resetLow then s.part else f s.part }

/-! ### Ports and segments -/

/-- What the part holds for a port. -/
def Part.port (s : Part) : Port → PortUnit
  | .port0 => s.port0
  | .port1 => s.port1

/-- Replace what the part holds for a port. -/
def Part.withPort (s : Part) (p : Port) (u : PortUnit) : Part :=
  match p with
  | .port0 => { s with port0 := u }
  | .port1 => { s with port1 := u }

/-- Change what the part holds for a port. -/
def Part.updatePort (s : Part) (p : Port) (f : PortUnit → PortUnit) : Part :=
  s.withPort p (f (s.port p))

/-- A segment group. -/
def Part.seg (s : Part) : Segment → SegmentUnit
  | .a => s.segA
  | .b => s.segB

/-- Replace a segment group. -/
def Part.withSeg (s : Part) (g : Segment) (u : SegmentUnit) : Part :=
  match g with
  | .a => { s with segA := u }
  | .b => { s with segB := u }

/-- Change the engine of a segment. -/
def Part.updateEngine (s : Part) (g : Segment) (f : Engine → Engine) : Part :=
  s.withSeg g { s.seg g with engine := f (s.seg g).engine }

/-- Change the controller of a segment. -/
def Part.updateControl (s : Part) (g : Segment) (f : Control → Control) : Part :=
  s.withSeg g { s.seg g with control := f (s.seg g).control }

/-- The engine of a segment. -/
def Part.engine (s : Part) (g : Segment) : Engine := (s.seg g).engine

/-- The controller of a segment. -/
def Part.control (s : Part) (g : Segment) : Control := (s.seg g).control

/-! ### The Point Table and its views -/

/-- R1: the record in a slot, or none when the slot is FREE. -/
def Part.record (s : Part) (n : Nat) : Option Record := s.slots[n]?.join

/-- Put a record in a slot. -/
def Part.withRecord (s : Part) (n : Nat) (r : Record) : Part :=
  { s with slots := s.slots.set n (some r) }

/-- Make a slot FREE (the record ceases to exist, R1). -/
def Part.freeSlot (s : Part) (n : Nat) : Part :=
  { s with slots := s.slots.set n none }

/-- The slots whose record meets a test, in ascending order. -/
def Part.slotsWhere (s : Part) (test : Nat → Record → Bool) : List Nat :=
  (List.range s.slots.length).filter fun n => (s.record n).any (test n)

/-- R18: the free-slot set, in ascending order. -/
def Part.freeSlots (s : Part) : List Nat :=
  (List.range s.slots.length).filter fun n => (s.record n).isNone

/-- R20: insertion of an entry of the Tag Directory in ascending tag order. -/
def insertTag (e : Nat × Nat) : List (Nat × Nat) → List (Nat × Nat)
  | [] => [e]
  | d :: rest => if e.1 < d.1 then e :: d :: rest else d :: insertTag e rest

/-- R20: the Tag Directory, one (tag, slot) for each slot that is not FREE, in ascending tag order. -/
def Part.tagDirectory (s : Part) : List (Nat × Nat) :=
  (s.slotsWhere fun _ _ => true).foldr
    (fun n d => (s.record n).elim d fun r => insertTag (r.tag, n) d) []

/-- R20: the slot to which a tag is bound. -/
def Part.slotOfTag (s : Part) (tag : Nat) : Option Nat :=
  s.slots.findIdx? fun o => o.any fun r => r.tag == tag

/-- Is this a record routed to this station? -/
def Record.onStation (r : Record) (g : Segment) (station : Nat) : Bool :=
  r.segment == g && r.station == station

/-- R142: the number of non-FREE records routed to a station. -/
def Part.refCount (s : Part) (g : Segment) (station : Nat) : Nat :=
  s.slots.countP fun o => o.any fun r => r.onStation g station

/-- R1: OUTPUT and GUARDED are the output class. -/
def RecordKind.outputClass : RecordKind → Bool
  | .input => false
  | .output => true
  | .guarded => true

/-- R28: PENDING, LIVE and STALE, the states in which a record is served. -/
def RecordState.served : RecordState → Bool
  | .pending | .live | .stale => true
  | .halted | .retiring | .retired => false

/-- R28: the active states. -/
def RecordState.active : RecordState → Bool
  | .pending | .live | .stale | .halted => true
  | .retiring | .retired => false

/-- R6: freshness applies to INPUT records and to OUTPUT records with a period greater than 0. -/
def freshnessApplies (kind : RecordKind) (period : Nat) : Bool :=
  match kind with
  | .input => true
  | .output => period != 0
  | .guarded => false

/-! ### Stations -/

/-- R141: the entry of a station; station 0 has none. -/
def Part.station (s : Part) (g : Segment) (n : Nat) : Option Station :=
  if n = 0 then none else (s.seg g).stations[n - 1]?

/-- Replace the entry of a station. -/
def Part.withStation (s : Part) (g : Segment) (n : Nat) (e : Station) : Part :=
  if n = 0 then s else s.withSeg g { s.seg g with stations := (s.seg g).stations.set (n - 1) e }

/-- The state of a station; a number with no entry counts as ABSENT. -/
def Part.stationState (s : Part) (g : Segment) (n : Nat) : StationState :=
  (s.station g n).elim .absent (·.state)

/-- Is the station PRESENT? -/
def Part.present (s : Part) (g : Segment) (n : Nat) : Bool := s.stationState g n == .present

/-- R4, R39, R46: the condition a record takes from the state of its station. -/
def conditionFor : StationState → Condition
  | .present => .noneYet
  | .absent => .stationAbsent
  | .silent => .stationSilent
  | .barred => .stationBarred

/-- The identity of a PRESENT station (R43, R46). -/
def Part.presentIdentity (s : Part) (g : Segment) (n : Nat) : Option Identity :=
  match s.station g n with
  | some e => if e.state = .present then e.identity else none
  | none => none

/-- R43, R46, R148: does an expected identity differ from the identity of the PRESENT station? -/
def Part.identityDiffers (s : Part) (r : Record) : Bool :=
  match r.expected with
  | some want => s.present r.segment r.station && s.presentIdentity r.segment r.station != some want
  | none => false

/-- R94, R164: may the station be probed? -/
def StationState.probed : StationState → Bool
  | .absent | .silent => true
  | .present | .barred => false

/-! ### The Due Queue and the exchange in flight -/

/-- R13, R84: does the slot stand in the Due Queue? -/
def Engine.queued (e : Engine) (n : Nat) : Bool :=
  e.active.any (·.slot == n) || e.held.contains n

/-- R13, R84: the carried marker of a slot. -/
def Engine.carried (e : Engine) (n : Nat) : Bool :=
  e.active.any (fun q => q.slot == n && q.carried) || e.held.contains n

/-- R87: remove the entries of the slots that meet a test; the others keep their order. -/
def Engine.remove (e : Engine) (test : Nat → Bool) : Engine :=
  { e with active := e.active.filter (fun q => !test q.slot), held := e.held.filter (fun n => !test n) }

/-- R73: the kind of the exchange of a record that is in flight: the engine's, or that of an outcome that the Table
Controller has not taken yet. -/
def Engine.inFlightKind (e : Engine) (n : Nat) : Option ExchangeKind :=
  match e.exchange with
  | some x => if x.slot = some n then some x.kind else outcomeKind
  | none => outcomeKind
where
  /-- The kind of the untaken outcome that serves the slot. -/
  outcomeKind : Option ExchangeKind :=
    (e.toTable.find? fun o => o.exchange.slot == some n).map (·.exchange.kind)

/-- R13: the in flight marker of a record. -/
def Part.inFlight (s : Part) (n : Nat) (r : Record) : Bool :=
  ((s.engine r.segment).inFlightKind n).isSome

/-- Remove one slot from the Due Queue of its segment (R87). -/
def Part.dequeue (s : Part) (g : Segment) (n : Nat) : Part :=
  s.updateEngine g (·.remove (· == n))

/-- R86: placement at the tail of the held part. -/
def Part.placeCarry (s : Part) (g : Segment) (n : Nat) : Part :=
  s.updateEngine g fun e => { e with held := e.held ++ [n] }

/-- R86: placement at the head of the active part. -/
def Part.placeContinue (s : Part) (g : Segment) (n : Nat) : Part :=
  s.updateEngine g fun e => { e with active := ⟨n, false⟩ :: e.active }

/-- Is the record in the slot RETIRING? A RETIRING record's only entry is its owed CANCEL (R50). -/
def Part.retiringSlot (s : Part) (n : Nat) : Bool :=
  (s.record n).any fun r => r.state == .retiring

/-- R50, R86: an owed CANCEL joins the held part behind the owed CANCELs already there and ahead of the rest. -/
def Part.placeOwedCancel (s : Part) (g : Segment) (n : Nat) : Part :=
  s.updateEngine g fun e =>
    { e with held := e.held.takeWhile s.retiringSlot ++ n :: e.held.dropWhile s.retiringSlot }

/-- R49, R86: is the segment RUNNING or HELD? -/
def SegmentState.queues : SegmentState → Bool
  | .running | .held => true
  | .off | .powering | .scanning | .fault => false

/-- R26, R168: are both handed-out parts of every teardown of the segment taken? Claims of a new run wait for them (log
25). -/
def Control.teardownDone (c : Control) : Bool := c.stationTeardowns == 0 && c.recordTeardowns.isEmpty

/-! ### Pins that follow the state -/

/-- R96: SxDE is asserted exactly while the engine is in REQUEST. -/
def Engine.driverEnable (e : Engine) : Bool :=
  match e.state with
  | .request _ => true
  | .ready | .wait _ | .reply _ _ _ | .settle _ => false

end Sys2Proof.Machine
end

