-- ==== Sys2Proof/Machine/Flags.lean ====
section
/-! DEFINITION. Attention reasons, the Attention Lists, the segment-change flags and the interrupt lines (chapter 9). -/

namespace Sys2Proof.Machine

/-- R12: a reason joins the set; one already there leaves it as it was. -/
def ReasonSet.add (s : ReasonSet) : Reason → ReasonSet
  | .arrived => { s with arrived := true }
  | .fresh => { s with fresh := true }
  | .stale => { s with stale := true }
  | .halted => { s with halted := true }
  | .changed => { s with changed := true }
  | .applied => { s with applied := true }
  | .retired => { s with retired := true }
  | .station => { s with station := true }

/-- Is the reason in the set? -/
def ReasonSet.has (s : ReasonSet) : Reason → Bool
  | .arrived => s.arrived
  | .fresh => s.fresh
  | .stale => s.stale
  | .halted => s.halted
  | .changed => s.changed
  | .applied => s.applied
  | .retired => s.retired
  | .station => s.station

/-- R201: bit 0 ARRIVED, 1 FRESH, 2 STALE, 3 HALTED, 4 CHANGED, 5 APPLIED, 6 RETIRED, 7 STATION. -/
def ReasonSet.code (s : ReasonSet) : Byte :=
  BitVec.ofNat 8 (s.arrived.toNat + 2 * s.fresh.toNat + 4 * s.stale.toNat + 8 * s.halted.toNat +
    16 * s.changed.toNat + 32 * s.applied.toNat + 64 * s.retired.toNat + 128 * s.station.toNat)

/-- R175: the reasons a claim raises join the record's set; none is raised while silent retire is yes (R52). -/
def Record.withReasons (r : Record) (raised : List Reason) : Record :=
  if r.silentRetire then r else { r with reasons := raised.foldl ReasonSet.add r.reasons }

/-- R175: does raising these reasons on this record put its slot on a list? -/
def Record.notifies (r : Record) (raised : List Reason) : Bool :=
  !r.silentRetire && !raised.isEmpty

/-- R174, R175: a slot joins a list at its tail, once. -/
def joinList (list : List Nat) (n : Nat) : List Nat :=
  if list.contains n then list else list ++ [n]

/-- R175: put a record back in its slot with the reasons raised on it, and its slot on its owner's Attention List. -/
def Part.put (s : Part) (n : Nat) (r : Record) (raised : List Reason) : Part :=
  let s' := s.withRecord n (r.withReasons raised)
  if r.notifies raised then
    s'.updatePort r.owner fun u => { u with attention := joinList u.attention n }
  else s'

/-- What a claim makes of one record: the record afterwards and the reasons raised on it. -/
abbrev Verdict := Record × List Reason

/-- R26, R175: one claim on many records. Every record that meets the test takes its verdict; the slots on which a
reason is raised join their owners' lists in ascending slot order. -/
def Part.forRecords (s : Part) (test : Nat → Record → Bool) (f : Nat → Record → Verdict) : Part :=
  let joining (p : Port) (list : List Nat) : List Nat :=
    list ++ (s.slotsWhere fun n r =>
      test n r && (f n r).1.owner == p && (f n r).1.notifies (f n r).2 && !list.contains n)
  { s with
    slots := s.slots.mapIdx fun n o => o.map fun r => if test n r then (f n r).1.withReasons (f n r).2 else r
    port0 := { s.port0 with attention := joining .port0 s.port0.attention }
    port1 := { s.port1 with attention := joining .port1 s.port1.attention } }

/-- R175: one claim that raised its reasons record after record, from `s` to `t`: the slots that it put on a list stand
there in ascending slot order, behind those that stood there before and that it did not release. -/
def Part.inSlotOrder (s t : Part) : Part :=
  let ordered (p : Port) : List Nat :=
    (s.port p).attention.filter (t.port p).attention.contains ++
      t.slotsWhere fun n _ => (t.port p).attention.contains n && !(s.port p).attention.contains n
  { t with
    port0 := { t.port0 with attention := ordered .port0 }
    port1 := { t.port1 with attention := ordered .port1 } }

/-- The segment-change flag of a port for a segment (R181). -/
def PortUnit.flag (u : PortUnit) : Segment → Bool
  | .a => u.flagA
  | .b => u.flagB

/-- Set or clear a segment-change flag. -/
def PortUnit.withFlag (u : PortUnit) (g : Segment) (b : Bool) : PortUnit :=
  match g with
  | .a => { u with flagA := b }
  | .b => { u with flagB := b }

/-- R150, R158, R181: a change of the segment's or a station's state sets the segment's flag on both ports. -/
def Part.setFlags (s : Part) (g : Segment) : Part :=
  { s with port0 := s.port0.withFlag g true, port1 := s.port1.withFlag g true }

/-- R183: is the interrupt line of the port asserted (low)? -/
def PortUnit.interrupt (u : PortUnit) : Bool :=
  (!u.attention.isEmpty && u.listEnable) || ((u.flagA || u.flagB) && u.segmentEnable)

/-! ### Release of a slot and the stations' part in it -/

/-- R142: what a release that brings the count of a station to 0 does to its entry. -/
def Part.forgetUnused (s : Part) (g : Segment) (n : Nat) : Part :=
  if s.refCount g n = 0 then
    match s.station g n with
    | some e =>
      match e.state with
      | .silent => (s.withStation g n ⟨.absent, none, 0⟩).setFlags g
      | .absent => s.withStation g n { e with identity := none }
      | .present | .barred => s
    | none => s
  else s

/-- R19: release of a slot: out of the Due Queue, off its owner's Attention List, its record gone (its tag with it), and
the reference count of its station one less. -/
def Part.release (s : Part) (n : Nat) : Part :=
  match s.record n with
  | none => s
  | some r =>
    let s₁ := s.dequeue r.segment n
    let s₂ := s₁.updatePort r.owner fun u => { u with attention := u.attention.filter (· != n) }
    (s₂.freeSlot n).forgetUnused r.segment r.station

/-! ### Departure and return of a station (chapter 7) -/

/-- R145: what a departure from PRESENT makes of one record of the station. A record with silent retire has no entry in the
Due Queue (R52), and is freed without a notice. -/
def departureVerdict (e : Engine) (cond : Condition) (n : Nat) (r : Record) : Verdict :=
  match r.state with
  | .live => ({ r with state := .stale, condition := cond }, [.stale])
  | .pending | .stale => ({ r with condition := cond }, [])
  | .halted | .retired => (r, [])
  | .retiring =>
    if e.queued n && !r.silentRetire then ({ r with state := .retired, condition := .cancelUnconfirmed }, [.retired])
    else (r, [])

/-- R145: the records of a station that leaves PRESENT, and their removal from the Due Queue (R87). -/
def Part.departRecords (s : Part) (g : Segment) (station : Nat) (cond : Condition) : Part :=
  (s.forRecords (fun _ r => r.onStation g station) (departureVerdict (s.engine g) cond)).updateEngine g
    (·.remove fun n => (s.record n).any fun r => r.onStation g station)

/-- R148: what an attach or reattach makes of one record: the expected identity is compared, and the sequence bit of an
output-class record becomes 0; the node has cleared its sequence memory, so the next STORE is applied (R65), and no lost
ACCEPT is outstanding (log 31). `notice` says whether STATION is raised on a record that the comparison does not halt. -/
def attachVerdict (identity : Identity) (notice : Bool) (_n : Nat) (r : Record) : Verdict :=
  let r₀ := if r.kind.outputClass then { r with sequenceBit := false, missed := false } else r
  let differs := r.expected.any (· != identity)
  let raised := if notice then [Reason.station] else []
  match r.state with
  | .pending | .live | .stale =>
    if differs then ({ r₀ with state := .halted, condition := .identityMismatch }, [.halted]) else (r₀, raised)
  | .halted =>
    if differs then ({ r₀ with condition := .identityMismatch }, []) else (r₀, raised)
  | .retiring | .retired => (r, [])

/-- R31, R87: a record that is HALTED leaves the Due Queue of its segment. -/
def Part.dequeueHalted (s : Part) (g : Segment) : Part :=
  s.updateEngine g (·.remove fun n => (s.record n).any fun r => r.state == .halted && r.segment == g)

/-- R147, R149: the station becomes PRESENT with this identity; its records are compared. -/
def Part.attach (s : Part) (g : Segment) (station : Nat) (identity : Identity) (notice : Bool) : Part :=
  let s₁ := s.withStation g station ⟨.present, some identity, 0⟩
  let s₂ := s₁.forRecords (fun _ r => r.onStation g station) (attachVerdict identity notice)
  (s₂.dequeueHalted g).setFlags g

end Sys2Proof.Machine
end

