-- ==== Sys2Proof/Machine/Link.lean ====
section
/-! DEFINITION. The Rowsan link (chapter 3): times, frame layout, check, master frames, and the judgement of a reply. -/

namespace Sys2Proof.Machine

/-! ### Times, in CLK cycles (log 4) -/

/-- Section 3 table: one bit time is 4 µs, 1 µs or 0.4 µs. -/
def BitRate.bit : BitRate → Nat
  | .kbit250 => 80
  | .mbit1 => 20
  | .mbit2p5 => 8

/-- A number of bit times at the segment's rate. -/
def SegmentConfig.bits (c : SegmentConfig) (n : Nat) : Nat := n * c.bitRate.bit

/-- A number of characters at the segment's rate (R55). -/
def SegmentConfig.chars (c : SegmentConfig) (n : Nat) : Nat := c.bits (n * Config.charBits)

/-- R76: the cycle length C. -/
def SegmentConfig.cycleLength (c : SegmentConfig) : Nat := c.cyclePeriod * Config.cycleUnit

/-- R163: the settle time. -/
def SegmentConfig.settleLength (c : SegmentConfig) : Nat := c.settleTime * Config.settleUnit

/-- R61: the payload bytes of the request of an exchange for a record of this length. -/
def ExchangeKind.requestPayload (k : ExchangeKind) (length : Nat) : Nat :=
  match k with
  | .fetch | .probe => 0
  | .store => length
  | .stage => 1 + length
  | .verify | .commit | .cancel => 1

/-- R62: the payload bytes of the longest expected reply. -/
def ExchangeKind.replyPayload (k : ExchangeKind) (length : Nat) : Nat :=
  match k with
  | .fetch => length
  | .probe => 5
  | .verify => 1 + length
  | .store | .stage | .commit | .cancel => 0

/-- R57: a frame is 6 characters and its payload. -/
def frameChars (payload : Nat) : Nat := 6 + payload

/-- R72: 10 × (request characters) + W + 10 × (longest expected reply characters) + G, in bit times. -/
def reservationBits (window : Nat) (k : ExchangeKind) (length : Nat) : Nat :=
  10 * frameChars (k.requestPayload length) + window + 10 * frameChars (k.replyPayload length) + Config.gapBits

/-- R72: the reservation of an exchange. -/
def SegmentConfig.reservation (c : SegmentConfig) (k : ExchangeKind) (length : Nat) : Nat :=
  c.bits (reservationBits c.replyWindow k length)

/-! ### Bytes -/

/-- A 16-bit number, most significant byte first (R57, R187, R191). -/
def be16 (n : Nat) : List Byte := [BitVec.ofNat 8 (n / 256), BitVec.ofNat 8 n]

/-- The number of two bytes, most significant first. -/
def ofBe16 (hi lo : Byte) : Nat := hi.toNat * 256 + lo.toNat

/-- R64, R191: the identity, most significant byte first, then the class. -/
def identityBytes (i : Identity) : List Byte :=
  [i.node.extractLsb' 24 8, i.node.extractLsb' 16 8, i.node.extractLsb' 8 8, i.node.extractLsb' 0 8, i.cls]

/-- The identity and class of five bytes (R57, R64, R200). -/
def identityOf (b₃ b₂ b₁ b₀ cls : Byte) : Identity :=
  ⟨b₃ ++ b₂ ++ b₁ ++ b₀, cls⟩

/-! ### The check (R59) -/

/-- R59: the check register takes one bit: generator x^16 + x^12 + x^5 + 1. -/
def checkBit (reg : BitVec 16) (bit : Bool) : BitVec 16 :=
  if reg.msb != bit then (reg <<< 1) ^^^ 0x1021#16 else reg <<< 1

/-- R59: a byte enters most significant bit first. -/
def checkByte (reg : BitVec 16) (b : Byte) : BitVec 16 :=
  [7, 6, 5, 4, 3, 2, 1, 0].foldl (fun r i => checkBit r (b.getLsbD i)) reg

/-- R59: the register starts at all ones, and no value is added to the result. -/
def check (bytes : List Byte) : BitVec 16 := bytes.foldl checkByte 0xFFFF#16

/-- R57, R59: header and payload, then the check, high byte first. -/
def withCheck (bytes : List Byte) : List Byte := bytes ++ be16 (check bytes).toNat

/-! ### Master frames -/

/-- R57: the frame kind codes of the master. -/
def ExchangeKind.code : ExchangeKind → Byte
  | .fetch => 0x2
  | .store => 0x3
  | .probe => 0x4
  | .stage => 0x5
  | .verify => 0x6
  | .commit => 0x7
  | .cancel => 0x8

/-- R57, R58: the guard marker is set in the four guarded frames and in no others. -/
def ExchangeKind.guarded : ExchangeKind → Bool
  | .fetch | .store | .probe => false
  | .stage | .verify | .commit | .cancel => true

/-- R57, R58: byte 0 of a master frame: kind, sequence bit (bit 4), guard marker (bit 5). -/
def headerByte (k : ExchangeKind) (sequenceBit : Bool) : Byte :=
  k.code ||| (if k = .store && sequenceBit then 0x10#8 else 0) ||| (if k.guarded then 0x20#8 else 0)

/-- R57, R58: the master frame of an exchange. -/
def masterFrame (k : ExchangeKind) (sequenceBit : Bool) (station object : Nat) (payload : List Byte) : List Byte :=
  withCheck ([headerByte k sequenceBit, BitVec.ofNat 8 station, BitVec.ofNat 8 object,
    BitVec.ofNat 8 payload.length] ++ payload)

/-- R60: MARK, to station 0 and object 0, carrying the cycle number. -/
def markFrame (cycle : BitVec 16) : List Byte :=
  withCheck ([0x1#8, 0#8, 0#8, 2#8] ++ be16 cycle.toNat)

/-- R55: a character on the line: a start bit of 0, eight data bits, least significant first, a stop bit of 1. -/
def characterBits (b : Byte) : List Bool :=
  [false] ++ [0, 1, 2, 3, 4, 5, 6, 7].map b.getLsbD ++ [true]

/-- R54, R55: the bits that SxTX carries for the frame on the line, with no idle time between characters; when there is
none, SxTX stands at 1. -/
def Engine.lineBits (e : Engine) : List Bool := e.frame.flatMap characterBits

/-- R54, R55: the level of SxTX in a bit time, counted from the first start bit of the frame on the line: after the frame, and
where there is none, the idle level 1. -/
def Engine.txLevel (e : Engine) (bit : Nat) : Bool := e.lineBits.getD bit true

/-! ### A character received (R56) -/

/-- R56: the level of SxRX in a CLK cycle of the levels given; beyond them the line is idle (log 38). -/
def levelAt (line : List Bool) (cycle : Nat) : Bool := line.getD cycle true

/-- R56: the middle of a character's bit, in CLK cycles after the falling edge of its start bit, which is bit 0. -/
def BitRate.middle (rate : BitRate) (bit : Nat) : Nat := bit * rate.bit + rate.bit / 2

/-- R56: the part's sample of a bit of the character that begins with the levels given. -/
def BitRate.sample (rate : BitRate) (line : List Bool) (bit : Nat) : Bool := levelAt line (rate.middle bit)

/-- R56: do the levels begin with a start bit? The line falls from 1 to 0, and is still 0 at the middle of the bit. A pulse that
has ended before, and a line that stood at 0, are none. -/
def BitRate.startBit (rate : BitRate) (before : Bool) (line : List Bool) : Bool :=
  before && (List.range (rate.middle 0 + 1)).all fun t => !levelAt line t

/-- R56, R67: the first start bit on the line, in CLK cycles after the first of the levels; shorter pulses before it are
ignored. -/
def BitRate.firstStart (rate : BitRate) : List Bool → Option Nat
  | [] => none
  | before :: line => if rate.startBit before line then some 0 else (rate.firstStart line).map (· + 1)

/-- R55, R56: the byte of a character: its bits 1 to 8, least significant first. -/
def BitRate.byte (rate : BitRate) (line : List Bool) : Byte := BitVec.ofFnLE fun i : Fin 8 => rate.sample line (i + 1)

/-- R56: the level sampled as a character's stop bit. -/
def BitRate.stopBit (rate : BitRate) (line : List Bool) : Bool := rate.sample line 9

/-! ### The reply (R69 to R71) -/

/-- R57: the reply kinds by code. -/
inductive ReplyKind where
  | data
  | accept
  | defer
  | refuse
  | ident
deriving DecidableEq, Repr

/-- R57: the reply kind that byte 0 names in bits 3 to 0; bits 7 to 4 are not examined. -/
def replyKind (b : Byte) : Option ReplyKind :=
  match b &&& 0x0F#8 with
  | 0x9#8 => some .data
  | 0xA#8 => some .accept
  | 0xB#8 => some .defer
  | 0xC#8 => some .refuse
  | 0xD#8 => some .ident
  | _ => none

/-- R62: the expected payload bytes of a reply kind, where the exchange admits it. -/
def ExchangeKind.expected (k : ExchangeKind) (length : Nat) (r : ReplyKind) : Option Nat :=
  match k, r with
  | .fetch, .data => some length
  | .verify, .data => some (1 + length)
  | .store, .accept | .stage, .accept | .commit, .accept | .cancel, .accept => some 0
  | .probe, .ident => some 5
  | .probe, _ => none
  | _, .defer | _, .refuse => some 0
  | _, _ => none

/-- R69: the characters of a reply whose header is complete: header, payload, check. -/
def replyTotal (received : List Byte) : Option Nat :=
  match received with
  | _ :: _ :: _ :: n :: _ => some (4 + n.toNat + 2)
  | _ => none

/-- R71: a clean reply, by its kind. -/
def cleanResult (r : ReplyKind) (payload : List Byte) : ExchangeResult :=
  match r with
  | .data => .data payload
  | .accept => .accept
  | .defer => .defer
  | .refuse => .refuse
  | .ident =>
    match payload with
    | [b₃, b₂, b₁, b₀, cls] => .ident (identityOf b₃ b₂ b₁ b₀ cls)
    | _ => .error .shortReply

/-- R71: tests 2 to 5 on the header and payload of a reply whose check has passed. -/
def judgeHeader (x : Exchange) (kind station object : Byte) (payload : List Byte) : ExchangeResult :=
  if station.toNat ≠ x.station then .error .wrongStation
  else
    match (replyKind kind).bind fun r => (x.kind.expected x.length r).map fun n => (r, n) with
    | none => .error .frameError
    | some (r, n) =>
      if object.toNat ≠ x.object then .error .frameError
      else if payload.length < n then .error .shortReply
      else if n < payload.length then .error .longReply
      else cleanResult r payload

/-- R71: the judgement of a complete reply: the check first, then the other tests. -/
def judge (x : Exchange) (received : List Byte) : ExchangeResult :=
  let body := received.take (received.length - 2)
  if be16 (check body).toNat ≠ received.drop (received.length - 2) then .error .checkError
  else
    match body with
    | kind :: station :: object :: _ :: payload => judgeHeader x kind station object payload
    | _ => .error .frameError

/-- R72: does the line settle after the gap G alone? -/
def ExchangeResult.quick : ExchangeResult → Bool
  | .data _ | .accept | .ident _ => true
  | .defer | .refuse | .timeout | .error _ => false

/-- R73: was any reply character received? Yes for every result but TIMEOUT. -/
def ExchangeResult.replied : ExchangeResult → Bool
  | .timeout => false
  | .data _ | .accept | .defer | .refuse | .ident _ | .error _ => true

end Sys2Proof.Machine
end

