-- ==== Sys2Proof/Machine/Operands.lean ====
section
/-! DEFINITION. The request and response frames and the forms of arguments and results (chapter 10). -/

namespace Sys2Proof.Machine

/-! ### Request codes (R189) -/

/-- R189: the requests. -/
inductive RequestCode where
  | lookup
  | scanFrom
  | read
  | insert
  | amend
  | write
  | resume
  | restart
  | retire
  | purge
  | stationQuery
  | stationBar
  | stationUnbar
  | segmentConfigure
  | segmentCommand
  | segmentStatus
  | takeAttention
  | portConfigure
deriving DecidableEq, Repr

/-- R189: the code of a request. -/
def RequestCode.code : RequestCode → Byte
  | .lookup => 0x01
  | .scanFrom => 0x02
  | .read => 0x03
  | .insert => 0x04
  | .amend => 0x05
  | .write => 0x06
  | .resume => 0x07
  | .restart => 0x08
  | .retire => 0x09
  | .purge => 0x0A
  | .stationQuery => 0x0B
  | .stationBar => 0x0C
  | .stationUnbar => 0x0D
  | .segmentConfigure => 0x0E
  | .segmentCommand => 0x0F
  | .segmentStatus => 0x10
  | .takeAttention => 0x11
  | .portConfigure => 0x12

/-- R189: the least and the greatest argument length of a request. -/
def RequestCode.argRange : RequestCode → Nat × Nat
  | .insert => (17, 49)
  | .write => (1, 32)
  | .amend => (13, 13)
  | .segmentConfigure => (7, 7)
  | .read | .segmentStatus => (1, 1)
  | .stationQuery | .stationBar | .stationUnbar | .segmentCommand | .portConfigure => (2, 2)
  | .lookup | .scanFrom | .resume | .restart | .retire | .purge | .takeAttention => (0, 0)

/-- The requests, in the order of their codes. -/
def RequestCode.all : List RequestCode :=
  [.lookup, .scanFrom, .read, .insert, .amend, .write, .resume, .restart, .retire, .purge, .stationQuery,
    .stationBar, .stationUnbar, .segmentConfigure, .segmentCommand, .segmentStatus, .takeAttention, .portConfigure]

/-- R188: does the frame pass the port's two checks? -/
def RequestFrame.admitted (f : RequestFrame) : Bool :=
  RequestCode.all.any fun c =>
    c.code == f.code && decide (c.argRange.1 ≤ f.args.length ∧ f.args.length ≤ c.argRange.2)

/-- R187, R188: the request frame that a run of bytes completes, if it completes one; bytes after it are not part of it. -/
def frameOf (bytes : List Byte) : Option RequestFrame :=
  match bytes with
  | code :: sequence :: tagHigh :: tagLow :: n :: rest =>
    if n.toNat ≤ rest.length then some ⟨code, sequence, ofBe16 tagHigh tagLow, rest.take n.toNat⟩ else none
  | _ => none

/-- R187: how many bytes a run of bytes lets the port take: all of them, or those of the frame it completes. -/
def framePart (bytes : List Byte) : Nat :=
  match frameOf bytes with
  | some f => 5 + f.args.length
  | none => bytes.length

/-! ### Statuses and responses -/

/-- R192: the statuses. -/
inductive Status where
  | done
  | accepted
  | badRequest
  | badTag
  | badField
  | tagInUse
  | tableFull
  | notFound
  | notOwner
  | wrongState
  | routeTaken
  | segmentBusy
  | empty
  | notReady
  | portBusy
deriving DecidableEq, Repr

/-- R192: the code of a status. -/
def Status.code : Status → Byte
  | .done => 0x00
  | .accepted => 0x01
  | .badRequest => 0x10
  | .badTag => 0x11
  | .badField => 0x12
  | .tagInUse => 0x13
  | .tableFull => 0x14
  | .notFound => 0x15
  | .notOwner => 0x16
  | .wrongState => 0x17
  | .routeTaken => 0x18
  | .segmentBusy => 0x19
  | .empty => 0x1A
  | .notReady => 0x1B
  | .portBusy => 0x1C

/-- What an owner answers: a status and the result bytes. -/
structure Answer where
  status : Status
  results : List Byte
deriving DecidableEq, Repr

/-- An answer that carries no results (R191). -/
def Answer.bare (s : Status) : Answer := ⟨s, []⟩

/-- R191: BAD_FIELD carries the offset of the field named. -/
def Answer.badField (offset : Byte) : Answer := ⟨.badField, [offset]⟩

/-- R190: the response frame, with the request's sequence and code echoed. -/
def responseFrame (status : Status) (sequence code : Byte) (results : List Byte) : List Byte :=
  [status.code, sequence, code, BitVec.ofNat 8 results.length] ++ results

/-- R190: the response that answers a request frame. -/
def RequestFrame.respond (f : RequestFrame) (a : Answer) : List Byte :=
  responseFrame a.status f.sequence f.code a.results

/-- R186, R188: the owner takes the request of this code that stands SUBMITTED in the port, and its answer goes into the
response buffer. Where no such request stands there, there is nothing to take (log 2). -/
def Part.takeRequest (s : Part) (p : Port) (c : RequestCode) (owner : RequestFrame → Part × Answer) : Part :=
  match (s.port p).buffer with
  | .submitted f =>
    if f.code = c.code then
      let (s', a) := owner f
      s'.updatePort p fun u => { u with buffer := .answered (f.respond a) }
    else s
  | .empty | .answered _ => s

/-! ### Forms of results (R191) and their codes (R201) -/

/-- R191: a number 0 to 255. -/
def num8 (n : Nat) : List Byte := [BitVec.ofNat 8 n]

/-- R191: yes or no. -/
def yesNo (b : Bool) : List Byte := [if b then 1 else 0]

/-- R191: a fixed-size item that may be absent: a presence byte, then the item's bytes, 0 when it is absent. -/
def optional (size : Nat) (item : Option (List Byte)) : List Byte :=
  match item with
  | some bytes => 1#8 :: bytes
  | none => 0#8 :: List.replicate size 0#8

/-- R191: a value area: a presence byte, then the bytes when present. -/
def valueArea (area : Option (List Byte)) : List Byte :=
  match area with
  | some bytes => 1#8 :: bytes
  | none => [0#8]

/-- R201: state codes. -/
def RecordState.code : RecordState → Byte
  | .pending => 1
  | .live => 2
  | .stale => 3
  | .halted => 4
  | .retiring => 5
  | .retired => 6

/-- R201: condition codes. -/
def Condition.code : Condition → Byte
  | .noneYet => 0
  | .ok => 1
  | .deferred => 2
  | .refused => 3
  | .checkError => 4
  | .frameError => 5
  | .wrongStation => 6
  | .shortReply => 7
  | .longReply => 8
  | .exhausted => 9
  | .timeout => 10
  | .stationAbsent => 11
  | .stationSilent => 12
  | .stationBarred => 13
  | .identityMismatch => 14
  | .verifyMismatch => 15
  | .segmentDown => 16
  | .cancelled => 17
  | .cancelUnconfirmed => 18

/-- R201: kind codes. -/
def RecordKind.code : RecordKind → Byte
  | .input => 1
  | .output => 2
  | .guarded => 3

/-- R200: the kind that a byte names. -/
def kindOf (b : Byte) : Option RecordKind :=
  match b with
  | 1#8 => some .input
  | 2#8 => some .output
  | 3#8 => some .guarded
  | _ => none

/-- R201: owner codes. -/
def portCode : Port → Byte
  | .port0 => 0
  | .port1 => 1

/-- R201: segment codes. -/
def segmentCode : Segment → Byte
  | .a => 0
  | .b => 1

/-- R201: the segment that a byte names. -/
def segmentOf (b : Byte) : Option Segment :=
  match b with
  | 0#8 => some .a
  | 1#8 => some .b
  | _ => none

/-- R201: guard phase codes. -/
def GuardPhase.code : GuardPhase → Byte
  | .closed => 0
  | .stage => 1
  | .verify => 2
  | .commit => 3
  | .cancel => 4

/-- R201: notice mode codes. -/
def NoticeMode.code : NoticeMode → Byte
  | .state => 0
  | .stateValue => 1

/-- R200: the notice mode that a byte names. -/
def noticeOf (b : Byte) : Option NoticeMode :=
  match b with
  | 0#8 => some .state
  | 1#8 => some .stateValue
  | _ => none

/-- R191: the yes or no that a byte names. -/
def yesNoOf (b : Byte) : Option Bool :=
  match b with
  | 0#8 => some false
  | 1#8 => some true
  | _ => none

/-- R201: station state codes. -/
def StationState.code : StationState → Byte
  | .absent => 0
  | .present => 1
  | .silent => 2
  | .barred => 3

/-- R201: segment state codes. -/
def SegmentState.code : SegmentState → Byte
  | .off => 0
  | .powering => 1
  | .scanning => 2
  | .running => 3
  | .held => 4
  | .fault => 5

/-- R201: bit rate codes. -/
def BitRate.code : BitRate → Byte
  | .kbit250 => 0
  | .mbit1 => 1
  | .mbit2p5 => 2

/-- R201: the bit rate that a byte names. -/
def bitRateOf (b : Byte) : Option BitRate :=
  match b with
  | 0#8 => some .kbit250
  | 1#8 => some .mbit1
  | 2#8 => some .mbit2p5
  | _ => none

/-- R22, R191: the descriptor of the record in a slot, in the order of R22. -/
def Part.descriptor (s : Part) (n : Nat) (r : Record) : List Byte :=
  let delivery (item : List Byte) : List Byte := optional 1 (if r.kind.outputClass then some item else none)
  num8 n ++
  [portCode r.owner] ++ yesNo r.shared ++ [r.kind.code] ++
  [segmentCode r.segment] ++ num8 r.station ++ num8 r.object ++
  num8 r.length ++ num8 r.period ++ num8 r.phase ++ optional 1 (r.countdown.map num8) ++
  [r.state.code, r.condition.code] ++ num8 r.age ++
  optional 1 (r.freshnessLimit.map num8) ++ num8 r.retryBudget ++ num8 r.errorCount ++
  delivery (yesNo r.sequenceBit) ++ delivery (yesNo r.dirty) ++ delivery (yesNo r.rewritten) ++
  [r.noticeMode.code] ++ optional 5 (r.expected.map identityBytes) ++
  [r.guardPhase.code] ++ optional 1 (r.guardToken.map num8) ++ optional 1 (r.tokenCounter.map num8) ++
  yesNo r.silentRetire ++ [r.reasons.code] ++
  yesNo ((s.engine r.segment).queued n) ++ yesNo ((s.engine r.segment).carried n) ++ yesNo (s.inFlight n r)

/-! ### The INSERT argument block (R200) -/

/-- R200: the fields of the INSERT argument block, as bytes. -/
structure InsertArgs where
  kind : Byte
  segment : Byte
  station : Byte
  object : Byte
  length : Byte
  period : Byte
  phase : Byte
  freshnessLimit : Byte
  retryBudget : Byte
  noticeMode : Byte
  shared : Byte
  expected : Option Identity
  value : List Byte
deriving DecidableEq, Repr

/-- R200: the layout of the INSERT argument block. -/
def insertArgs (args : List Byte) : Option InsertArgs :=
  match args with
  | kind :: segment :: station :: object :: length :: period :: phase :: limit :: budget :: notice :: shared ::
      given :: b₃ :: b₂ :: b₁ :: b₀ :: cls :: value =>
    some ⟨kind, segment, station, object, length, period, phase, limit, budget, notice, shared,
      if given = 0 then none else some (identityOf b₃ b₂ b₁ b₀ cls), value⟩
  | _ => none

/-- R37, R40: the phase check. -/
def phaseBad (period phase : Nat) : Bool :=
  if period = 0 then phase != 0 else decide (period ≤ phase)

/-- R37, R40: the period check. -/
def periodBad (kind : RecordKind) (period : Nat) : Bool :=
  match kind with
  | .input => period == 0
  | .output => false
  | .guarded => period != 0

/-- R7, R37: the budget that a budget argument selects. -/
def budgetOf (b : Nat) : Nat := if b = 0 then Config.defaultBudget else b

/-- R37: the first INSERT field that fails its check, by its offset in the block (R200). -/
def InsertArgs.failing (a : InsertArgs) : Option Byte :=
  match kindOf a.kind with
  | none => some 0
  | some kind =>
    if segmentOf a.segment = none then some 1
    else if a.station.toNat = 0 ∨ 30 < a.station.toNat then some 2
    else if a.length.toNat = 0 ∨ 32 < a.length.toNat then some 4
    else if periodBad kind a.period.toNat then some 5
    else if phaseBad a.period.toNat a.phase.toNat then some 6
    else if freshnessApplies kind a.period.toNat && a.freshnessLimit == 0 then some 7
    else if 7 < a.retryBudget.toNat then some 8
    else if noticeOf a.noticeMode = none then some 9
    else if yesNoOf a.shared = none then some 10
    else if kind.outputClass && a.value.length != a.length.toNat then some 17
    else if kind = .input && !a.value.isEmpty then some 17
    else none

/-! ### The AMEND argument block (R189) -/

/-- R189: the AMEND argument block; a field is present when its mask bit is 1. `expected` is absent when not named, and
otherwise the identity to set or none to clear. -/
structure AmendArgs where
  period : Option Nat
  phase : Option Nat
  freshnessLimit : Option Nat
  retryBudget : Option Nat
  noticeMode : Option Byte
  shared : Option Byte
  expected : Option (Option Identity)
deriving DecidableEq, Repr

/-- R189: the layout of the AMEND argument block; bit 7 of the mask is not examined. -/
def amendArgs (args : List Byte) : Option AmendArgs :=
  match args with
  | [mask, period, phase, limit, budget, notice, shared, operation, b₃, b₂, b₁, b₀, cls] =>
    let named {α : Type} (i : Nat) (x : α) : Option α := if mask.getLsbD i then some x else none
    some ⟨named 0 period.toNat, named 1 phase.toNat, named 2 limit.toNat, named 3 budget.toNat, named 4 notice,
      named 5 shared, named 6 (if operation = 0 then none else some (identityOf b₃ b₂ b₁ b₀ cls))⟩
  | _ => none

/-- R40: the resulting period. -/
def AmendArgs.newPeriod (a : AmendArgs) (r : Record) : Nat := a.period.getD r.period

/-- R40: the resulting phase: 0 when the resulting period is 0 and the phase is not named. -/
def AmendArgs.newPhase (a : AmendArgs) (r : Record) : Nat :=
  match a.phase with
  | some p => p
  | none => if a.newPeriod r = 0 then 0 else r.phase

/-- R40: the resulting freshness limit, absent where freshness does not apply. -/
def AmendArgs.newLimit (a : AmendArgs) (r : Record) : Option Nat :=
  if freshnessApplies r.kind (a.newPeriod r) then
    match a.freshnessLimit with
    | some f => some f
    | none => r.freshnessLimit
  else none

/-- R40: the first resulting field that fails its check, by its offset in the block. -/
def AmendArgs.failing (a : AmendArgs) (r : Record) : Option Byte :=
  if periodBad r.kind (a.newPeriod r) then some 1
  else if phaseBad (a.newPeriod r) (a.newPhase r) then some 2
  else if freshnessApplies r.kind (a.newPeriod r) && (a.newLimit r).getD 0 == 0 then some 3
  else if a.retryBudget.any (7 < ·) then some 4
  else if a.noticeMode.any (noticeOf · == none) then some 5
  else if a.shared.any (yesNoOf · == none) then some 6
  else none

/-! ### Station and segment arguments -/

/-- R151, R153, R154: the segment and station of a station request, or the answer that refuses them. -/
def stationArgs (args : List Byte) : Except Answer (Segment × Nat) :=
  match args with
  | [segment, station] =>
    match segmentOf segment with
    | none => .error (.badField 0)
    | some g => if station.toNat = 0 ∨ 30 < station.toNat then .error (.badField 1) else .ok (g, station.toNat)
  | _ => .error (.bare .badRequest)

/-- R160: the settings that a SEGMENT_CONFIGURE gives after its segment, or the offset of the first that fails. -/
def configArgs (rate periodHigh periodLow window settle limit : Byte) : Except Byte SegmentConfig :=
  match bitRateOf rate with
  | none => .error 1
  | some r =>
    let period := ofBe16 periodHigh periodLow
    if period < 10 ∨ 2000 < period then .error 2
    else if window.toNat < 16 then .error 4
    else if settle.toNat = 0 then .error 5
    else if limit.toNat = 0 ∨ 15 < limit.toNat then .error 6
    else .ok ⟨r, period, window.toNat, settle.toNat, limit.toNat⟩

end Sys2Proof.Machine
end

