-- ==== Sys2Proof/Machine/AttentionRequests.lean ====
section
/-! DEFINITION. TAKE_ATTENTION and PORT_CONFIGURE (sections 9.3 and 9.6). -/

namespace Sys2Proof.Machine

/-- R177, R201: the results of a notice. -/
def noticeResults (n : Nat) (r : Record) (left : Nat) : List Byte :=
  num8 n ++ be16 r.tag ++ [r.state.code, r.condition.code, r.reasons.code] ++ num8 left

/-- R177, R178: TAKE_ATTENTION takes the head notice of the caller's list, empties its reason set, and releases the slot
when the record is RETIRED. An entry that names a FREE slot, which R19 excludes, is dropped and nothing is returned (log
20). -/
def Part.ownNotice (s : Part) (p : Port) : Part × Answer :=
  match (s.port p).attention with
  | [] => (s, .bare .empty)
  | n :: rest =>
    let s₁ := s.updatePort p fun u => { u with attention := rest }
    match s.record n with
    | none => (s₁, .bare .empty)
    | some r =>
      let s₂ := s₁.withRecord n { r with reasons := .empty }
      (if r.state = .retired then s₂.release n else s₂, ⟨.done, noticeResults n r rest.length⟩)

/-- R182: PORT_CONFIGURE, with its checks in order. -/
def Part.ownPortConfigure (s : Part) (p : Port) (f : RequestFrame) : Part × Answer :=
  match f.args with
  | [list, segment] =>
    match yesNoOf list, yesNoOf segment with
    | none, _ => (s, .badField 0)
    | some _, none => (s, .badField 1)
    | some l, some g => (s.updatePort p fun u => { u with listEnable := l, segmentEnable := g }, .bare .done)
  | _ => (s, .bare .badRequest)

/-- TAKE_ATTENTION (R177). -/
def execTakeAttention (p : Port) (s : State) : Host.Outcome State Fault Refusal :=
  s.claim fun s => s.takeRequest p .takeAttention fun _ => s.ownNotice p

/-- PORT_CONFIGURE (R182). -/
def execPortConfigure (p : Port) (s : State) : Host.Outcome State Fault Refusal :=
  s.claim fun s => s.takeRequest p .portConfigure (s.ownPortConfigure p)

end Sys2Proof.Machine
end

