-- ==== Sys2Proof/Machine/EngineOps.lean ====
section
/-! DEFINITION. What the commands share on the line: the passing of time, frames, MARK, PROBE, the end of an exchange,
the scan and the teardown (chapters 3, 4 and 8). -/

namespace Sys2Proof.Machine

/-! ### Time -/

/-- Time passes on a segment: it is taken off the cycle timer and off the reservation (logs 4 and 5). -/
def Engine.elapse (e : Engine) (t : Nat) : Engine :=
  { e with
    cycleTimer := e.cycleTimer.map (· - t)
    exchange := e.exchange.map fun x => { x with reserveLeft := x.reserveLeft - t } }

/-! ### Frames -/

/-- R54, R96: a frame begins: the engine enters REQUEST with the frame on the line, 10 bit times a character. -/
def Engine.send (e : Engine) (c : SegmentConfig) (frame : List Byte) : Engine :=
  { e with state := .request (c.chars frame.length), frame := frame }

/-- R54: the frame has been sent, or is cut off: SxDE is released and SxTX returns to 1. -/
def Engine.releaseLine (e : Engine) : Engine := { e with frame := [] }

/-- R76 to R79: the MARK of a cycle: it goes on the line, the cycle timer starts at it, the cycle step is handed to the
Table Controller, and a MARK that was owed is owed no longer. -/
def Engine.sendMark (e : Engine) (c : SegmentConfig) (cycle : BitVec 16) : Engine :=
  ({ e with
    cycleNumber := cycle
    cycleTimer := some c.cycleLength
    markOwed := false
    stepsDue := e.stepsDue + 1 }).send c (markFrame cycle)

/-- R77, R98: a MARK of cycle 0 called for at once: sent when the engine is READY, owed otherwise. -/
def Engine.callMark (e : Engine) (c : SegmentConfig) : Engine :=
  if e.state = .ready then e.sendMark c 0 else { e with markOwed := true }

/-- R61, R67, R90: an exchange starts: it is in flight, and its frame goes on the line. -/
def Engine.startExchange (e : Engine) (c : SegmentConfig) (x : Exchange) (frame : List Byte) : Engine :=
  ({ e with exchange := some x }).send c frame

/-- R58, R61: a PROBE of a station. -/
def probeOf (c : SegmentConfig) (station : Nat) : Exchange where
  kind := .probe
  slot := none
  station := station
  object := 0
  length := 0
  token := none
  owedCancel := false
  reserveLeft := c.reservation .probe 0

/-- R58, R61, R94, R164: the start of a PROBE. -/
def Engine.startProbe (e : Engine) (c : SegmentConfig) (station : Nat) : Engine :=
  e.startExchange c (probeOf c station) (masterFrame .probe false station 0 [])

/-! ### The end of an exchange -/

/-- R72: the settling time after a result: G after a clean DATA, ACCEPT or IDENT, the rest of the reservation otherwise. -/
def settlingTime (c : SegmentConfig) (x : Exchange) (r : ExchangeResult) : Nat :=
  if r.quick then c.bits Config.gapBits else x.reserveLeft

/-- R73: an exchange completes: its outcome is handed to the Station Directory and, when it serves a record, to the Table
Controller; the engine settles. -/
def Engine.complete (e : Engine) (c : SegmentConfig) (r : ExchangeResult) : Engine :=
  match e.exchange with
  | none => e
  | some x =>
    { e with
      exchange := none
      state := .settle (settlingTime c x r)
      toTable := if x.slot.isSome then e.toTable ++ [⟨x, r, none⟩] else e.toTable
      toStations := e.toStations ++ [⟨x, r, none⟩] }

/-! ### Segment state -/

/-- R158: a change of segment state sets the segment's flag on both ports. -/
def Part.enterState (s : Part) (g : Segment) (new : SegmentState) : Part :=
  (s.updateControl g fun c => { c with state := new }).setFlags g

/-! ### The scan (R164, R165) -/

/-- R164: the first station at or after a position that is ABSENT or SILENT, among the stations left. -/
def Part.scanNext (s : Part) (g : Segment) (position : Nat) : Option Nat :=
  (List.range' position (Config.stationCount + 1 - position)).find? fun n => (s.stationState g n).probed

/-- R165: the scan ends: RUNNING, scan position none, and a MARK of cycle 0 called for at once. -/
def Part.endScan (s : Part) (g : Segment) : Part :=
  let s₁ := s.updateControl g fun c => { c with scanPosition := none }
  (s₁.enterState g .running).updateEngine g (·.callMark (s.control g).config)

/-- R164: the turn passes to a position; stations that are not to be probed are passed over at once, and the scan ends
after station 30. -/
def Part.scanFrom (s : Part) (g : Segment) (position : Nat) : Part :=
  match s.scanNext g position with
  | some n => s.updateControl g fun c => { c with scanPosition := some n }
  | none => s.endScan g

/-! ### Teardown (R99, R168) -/

/-- R75, R99: the engine's part of the teardown. The claims already handed over stay, but for cycle steps (log 14). -/
def Engine.teardown (e : Engine) : Engine :=
  { e with
    active := []
    held := []
    exchange := none
    state := .ready
    cycleTimer := none
    cycleClosed := false
    probeTaken := false
    probeCursor := 1
    markOwed := false
    frame := []
    stepsDue := 0 }

/-- R167, R168: entry to OFF or FAULT with a teardown: SxPWR deasserted, settle timer stopped, scan position none, flags
set, the engine torn down at once, and the two other parts handed out. -/
def Part.tearDown (s : Part) (g : Segment) (new : SegmentState) : Part :=
  let abandoned := (s.engine g).exchange
  let s₁ := s.updateControl g fun c =>
    { c with
      powerOut := false
      settleTimer := none
      scanPosition := none
      stationTeardowns := c.stationTeardowns + 1
      recordTeardowns := c.recordTeardowns ++ [abandoned] }
  (s₁.enterState g new).updateEngine g Engine.teardown

/-- R157, R167: the states in which SxPWR is asserted and SxFLT is watched. -/
def SegmentState.powered : SegmentState → Bool
  | .powering | .scanning | .running | .held => true
  | .off | .fault => false

end Sys2Proof.Machine
end

