-- ==== Sys2Proof/Machine/Cycle.lean ====
section
/-! DEFINITION. The cycle (sections 4.2 to 4.7): the timer's expiry, the cycle step, the end of a MARK and of a settling
time, and the starts of exchanges and PROBEs. -/

namespace Sys2Proof.Machine

/-! ### CYCLE_TIMER_EXPIRY (R76 to R79) -/

/-- R76: an expiry is taken while the segment is RUNNING; the engine is READY then (R77, R91, log 29). The next MARK goes
out and the timer starts again. -/
def Part.expireCycle (s : Part) (g : Segment) : Part :=
  let e := s.engine g
  if (s.control g).state = .running ∧ e.state = .ready ∧ e.cycleTimer.isSome then
    s.updateEngine g fun e => e.sendMark (s.control g).config (e.cycleNumber + 1)
  else s

/-- CYCLE_TIMER_EXPIRY. -/
def execCycleTimerExpiry (g : Segment) (s : State) : Host.Outcome State Fault Refusal :=
  s.claim (·.expireCycle g)

/-! ### CYCLE_STEP (R80 to R85) -/

/-- R5: the age counts one more cycle, to 255. -/
def nextAge (age : Nat) : Nat := min 255 (age + 1)

/-- R3: the countdown at a cycle step: at 0 it reloads to period - 1, otherwise it is decremented. -/
def nextCountdown (period : Nat) : Option Nat → Option Nat
  | none => none
  | some 0 => some (period - 1)
  | some (k + 1) => some k

/-- R81: does the freshness check move the record to STALE, its age counted up already? -/
def Record.outlived (r : Record) : Bool :=
  r.state == .live && freshnessApplies r.kind r.period && r.freshnessLimit.any (· < nextAge r.age)

/-- R80, R81: what the cycle step makes of one record. -/
def stepVerdict (_n : Nat) (r : Record) : Verdict :=
  let r₁ := { r with age := nextAge r.age, countdown := nextCountdown r.period r.countdown }
  if r.outlived then ({ r₁ with state := .stale }, [.stale]) else (r₁, [])

/-- R82: is the record newly due? The countdown is the one the step tests. -/
def Part.newlyDue (s : Part) (g : Segment) (n : Nat) (r : Record) : Bool :=
  r.segment == g && r.state.served && s.present g r.station && !(s.engine g).queued n &&
    (r.countdown == some 0 || (r.kind.outputClass && r.dirty) || (r.kind == .guarded && r.guardPhase != .closed))

/-- R85: the newly due records, the output class before INPUT, each in ascending slot order. -/
def Part.dueList (s : Part) (g : Segment) : List Nat :=
  (s.slotsWhere fun n r => s.newlyDue g n r && r.kind.outputClass) ++
    (s.slotsWhere fun n r => s.newlyDue g n r && !r.kind.outputClass)

/-- R85: the queue is rebuilt: what stood in it comes first, carried, then the newly due records; the cycle is OPEN. -/
def Engine.rebuild (e : Engine) (due : List Nat) : Engine :=
  { e with
    active := e.active.map (fun q => ⟨q.slot, true⟩) ++ e.held.map (fun n => ⟨n, true⟩) ++ due.map (fun n => ⟨n, false⟩)
    held := []
    cycleClosed := false
    probeTaken := false
    stepsDue := e.stepsDue - 1 }

/-- R26, R79: a cycle step handed over is taken after the outcome and the teardown handed over before it (logs 7, 25). -/
def Part.takeStep (s : Part) (g : Segment) : Part :=
  let e := s.engine g
  if e.stepsDue ≠ 0 ∧ e.toTable = [] ∧ (s.control g).teardownDone then
    (s.forRecords (fun _ r => r.segment == g) stepVerdict).updateEngine g (·.rebuild (s.dueList g))
  else s

/-- CYCLE_STEP. -/
def execCycleStep (g : Segment) (s : State) : Host.Outcome State Fault Refusal :=
  s.claim (·.takeStep g)

/-! ### MARK_END and SETTLING_END (R60, R96, R97) -/

/-- R60, R96: the MARK's last stop bit ends; the engine settles for the gap G. -/
def Engine.endMark (e : Engine) (c : SegmentConfig) : Engine :=
  match e.state, e.exchange with
  | .request left, none => { (e.elapse left).releaseLine with state := .settle (c.bits Config.gapBits) }
  | _, _ => e

/-- MARK_END. -/
def execMarkEnd (g : Segment) (s : State) : Host.Outcome State Fault Refusal :=
  s.claim fun s => s.updateEngine g (·.endMark (s.control g).config)

/-- R96, R97: the settling time ends and the engine is READY: it sends a MARK that is owed; in SCANNING the turn passes to
the next station. -/
def Part.endSettling (s : Part) (g : Segment) : Part :=
  match (s.engine g).state with
  | .settle left =>
    let s₁ := s.updateEngine g fun e => { e.elapse left with state := .ready }
    if (s.engine g).markOwed then s₁.updateEngine g (·.callMark (s.control g).config)
    else
      match (s.control g).state, (s.control g).scanPosition with
      | .scanning, some position => s₁.scanFrom g (position + 1)
      | _, _ => s₁
  | _ => s

/-- SETTLING_END. -/
def execSettlingEnd (g : Segment) (s : State) : Host.Outcome State Fault Refusal :=
  s.claim (·.endSettling g)

/-! ### EXCHANGE_START (R88 to R92, R122) -/

/-- R88, R94: the engine is READY, the segment is RUNNING, no MARK is owed, the cycle's step is taken and with it every
outcome and teardown handed over before (R26, log 25), and the cycle is OPEN. -/
def Part.mayStart (s : Part) (g : Segment) : Bool :=
  let e := s.engine g
  e.state == .ready && (s.control g).state == .running && !e.markOwed && e.stepsDue == 0 && e.toTable.isEmpty &&
    (s.control g).teardownDone && !e.cycleClosed

/-- R88, R91: the time left in the cycle once so much more has passed, where the cycle has so much left. -/
def Engine.timeLeft (e : Engine) (elapsed : Nat) : Option Nat :=
  match e.cycleTimer with
  | some left => if elapsed ≤ left then some (left - elapsed) else none
  | none => none

/-- R89: the exchange that follows from the record as it stands. -/
def Record.nextExchange (r : Record) : Option ExchangeKind :=
  match r.kind with
  | .input => some .fetch
  | .output => some .store
  | .guarded =>
    match r.guardPhase with
    | .closed => if r.dirty then some .stage else none
    | .stage => some .stage
    | .verify => some .verify
    | .commit => some .commit
    | .cancel => some .cancel

/-- R9, R122: the token after a token: 255 is followed by 1. -/
def nextToken (t : Nat) : Nat := if t = 255 then 1 else t + 1

/-- R122: a guarded write opens. -/
def Record.openWrite (r : Record) : Record :=
  let token := nextToken (r.tokenCounter.getD 255)
  { r with
    tokenCounter := some token
    guardToken := some token
    staged := r.value
    dirty := false
    rewritten := false
    guardPhase := .stage }

/-- R8, R45, R90, R122: the record after the start of its exchange. Every STORE's start clears dirty and rewritten. -/
def Record.started (r : Record) : Record :=
  match r.kind with
  | .input => r
  | .output => { r with dirty := false, rewritten := false }
  | .guarded => if r.guardPhase = .closed then r.openWrite else r

/-- R50, R61, R90: the token that a guarded frame carries: the record's, or a free one where it holds none (log 30). -/
def Part.frameToken (s : Part) (r : Record) : Nat :=
  match r.guardToken with
  | some t => t
  | none => (Config.freeToken s.freeDraws).val + 1

/-- Was a free token drawn for this frame? -/
def Record.drawsToken (r : Record) (k : ExchangeKind) : Bool := k.guarded && r.guardToken.isNone

/-- R61, R90: the payload that the frame of a started record carries. -/
def Record.payload (r : Record) (k : ExchangeKind) (token : Nat) : List Byte :=
  match k with
  | .fetch | .probe => []
  | .store => r.value.getD []
  | .stage => BitVec.ofNat 8 token :: r.staged.getD []
  | .verify | .commit | .cancel => [BitVec.ofNat 8 token]

/-- R75, R121: the exchange in flight of a started record. -/
def Record.exchangeFor (r : Record) (c : SegmentConfig) (n : Nat) (k : ExchangeKind) (token : Nat) : Exchange where
  kind := k
  slot := some n
  station := r.station
  object := r.object
  length := r.length
  token := if k.guarded then some token else none
  owedCancel := r.state == .retiring
  reserveLeft := c.reservation k r.length

/-- R90: the start of the exchange of the head record, in one claim. -/
def Part.startHead (s : Part) (g : Segment) (elapsed : Nat) (n : Nat) (r : Record) (k : ExchangeKind) : Part :=
  let c := (s.control g).config
  let r' := r.started
  let token := s.frameToken r'
  let s₁ := { s with freeDraws := if r'.drawsToken k then s.freeDraws + 1 else s.freeDraws }
  ((s₁.withRecord n r').dequeue g n).updateEngine g fun e =>
    (e.elapse elapsed).startExchange c (r'.exchangeFor c n k token)
      (masterFrame k r.sequenceBit r.station r.object (r'.payload k token))

/-- R88, R91: the head of the active part is considered: its exchange starts if it fits, and otherwise the cycle becomes
CLOSED. -/
def Part.considerHead (s : Part) (g : Segment) (elapsed : Nat) : Part :=
  match (s.engine g).active, (s.engine g).timeLeft elapsed with
  | q :: _, some left =>
    match s.record q.slot with
    | none => s
    | some r =>
      match r.nextExchange with
      | none => s
      | some k =>
        if (s.control g).config.reservation k r.length ≤ left then s.startHead g elapsed q.slot r k
        else s.updateEngine g fun e => { e.elapse elapsed with cycleClosed := true }
  | _, _ => s

/-- EXCHANGE_START. -/
def execExchangeStart (g : Segment) (elapsed : Nat) (s : State) : Host.Outcome State Fault Refusal :=
  s.claim fun s => if s.mayStart g then s.considerHead g elapsed else s

/-! ### PROBE_START (R94) -/

/-- R94: the stations in the order cursor, cursor + 1, …, 30, 1, …, cursor - 1. -/
def probeOrder (cursor : Nat) : List Nat :=
  List.range' cursor (Config.stationCount + 1 - cursor) ++ List.range' 1 (cursor - 1)

/-- R94: the station after a station, 30 followed by 1. -/
def nextStation (n : Nat) : Nat := if n = Config.stationCount then 1 else n + 1

/-- R94: the station that the cursor's search chooses. -/
def Part.probeChoice (s : Part) (g : Segment) : Option Nat :=
  (probeOrder (s.engine g).probeCursor).find? fun n => (s.stationState g n).probed

/-- R94: a PROBE is considered: it starts if it fits, and otherwise the cycle becomes CLOSED. -/
def Part.considerProbe (s : Part) (g : Segment) (elapsed : Nat) : Part :=
  match s.probeChoice g, (s.engine g).timeLeft elapsed with
  | some n, some left =>
    let c := (s.control g).config
    if c.reservation .probe 0 ≤ left then
      s.updateEngine g fun e =>
        { (e.elapse elapsed).startProbe c n with probeTaken := true, probeCursor := nextStation n }
    else s.updateEngine g fun e => { e.elapse elapsed with cycleClosed := true }
  | _, _ => s

/-- PROBE_START. -/
def execProbeStart (g : Segment) (elapsed : Nat) (s : State) : Host.Outcome State Fault Refusal :=
  s.claim fun s =>
    if s.mayStart g && (s.engine g).active.isEmpty && !(s.engine g).probeTaken then s.considerProbe g elapsed else s

/-! ### SCAN_PROBE_START (R100, R164) -/

/-- R164: the PROBE of the station whose turn has come, its turn decided as the directory stands now, the
teardown of an earlier run taken (logs 17, 25). -/
def Part.startScanProbe (s : Part) (g : Segment) : Part :=
  match (s.control g).state, (s.control g).scanPosition, (s.engine g).state, (s.control g).teardownDone with
  | .scanning, some position, .ready, true =>
    match s.scanNext g position with
    | some n =>
      (s.updateControl g fun c => { c with scanPosition := some n }).updateEngine g fun e =>
        e.startProbe (s.control g).config n
    | none => s.endScan g
  | _, _, _, _ => s

/-- SCAN_PROBE_START. -/
def execScanProbeStart (g : Segment) (s : State) : Host.Outcome State Fault Refusal :=
  s.claim (·.startScanProbe g)

end Sys2Proof.Machine
end

