-- ==== Sys2Proof/Machine/PointReads.lean ====
section
/-! DEFINITION. LOOKUP, SCAN_FROM and READ (section 1.7): the requests that read the table and change nothing. -/

namespace Sys2Proof.Machine

/-- R22, R24, R36: what a tag names for a request that reads: BAD_TAG for 0, NOT_FOUND for an unbound tag. -/
def Part.findTag (s : Part) (tag : Nat) : Except Answer (Nat × Record) :=
  if tag = 0 then .error (.bare .badTag)
  else
    match s.slotOfTag tag with
    | some n =>
      match s.record n with
      | some r => .ok (n, r)
      | none => .error (.bare .notFound)
    | none => .error (.bare .notFound)

/-- R22: the answer to LOOKUP. -/
def Part.answerLookup (s : Part) (f : RequestFrame) : Answer :=
  match s.findTag f.tag with
  | .error a => a
  | .ok (n, r) => ⟨.done, s.descriptor n r⟩

/-- R23: the first entry of the Tag Directory at or above a tag. -/
def Part.firstFrom (s : Part) (tag : Nat) : Option (Nat × Nat) :=
  s.tagDirectory.find? fun e => decide (tag ≤ e.1)

/-- R23: the answer to SCAN_FROM. -/
def Part.answerScan (s : Part) (f : RequestFrame) : Answer :=
  match s.firstFrom f.tag with
  | none => .bare .notFound
  | some (tag, n) =>
    match s.record n with
    | none => .bare .notFound
    | some r => ⟨.done, be16 tag ++ num8 n ++ [portCode r.owner, r.kind.code, r.state.code]⟩

/-- R24: the results of READ: state, condition, age, dirty, and the selected area. -/
def Record.readResults (r : Record) (area : Option (List Byte)) : List Byte :=
  [r.state.code, r.condition.code] ++ num8 r.age ++
  optional 1 (if r.kind.outputClass then some (yesNo r.dirty) else none) ++ valueArea area

/-- R24: the answer to READ. -/
def Part.answerRead (s : Part) (f : RequestFrame) : Answer :=
  match s.findTag f.tag with
  | .error a => a
  | .ok (_, r) =>
    match f.args with
    | [0#8] => ⟨.done, r.readResults r.value⟩
    | [1#8] => ⟨.done, r.readResults r.staged⟩
    | _ => .badField 0

/-- LOOKUP (R22). -/
def execLookup (p : Port) (s : State) : Host.Outcome State Fault Refusal :=
  s.claim fun s => s.takeRequest p .lookup fun f => (s, s.answerLookup f)

/-- SCAN_FROM (R23). -/
def execScanFrom (p : Port) (s : State) : Host.Outcome State Fault Refusal :=
  s.claim fun s => s.takeRequest p .scanFrom fun f => (s, s.answerScan f)

/-- READ (R24). -/
def execRead (p : Port) (s : State) : Host.Outcome State Fault Refusal :=
  s.claim fun s => s.takeRequest p .read fun f => (s, s.answerRead f)

end Sys2Proof.Machine
end

