-- ==== Sys2Proof/Machine/PointRequests.lean ====
section
/-! DEFINITION. The requests that change a record on purpose (chapter 2, and RESTART of chapter 6). -/

namespace Sys2Proof.Machine

/-! ### INSERT -/

/-- R38: is the route held by another output-class record? -/
def Part.routeHeld (s : Part) (g : Segment) (station object : Nat) : Bool :=
  s.slots.any fun o => o.any fun r => r.kind.outputClass && r.onStation g station && r.object == object

/-- R18: the lowest FREE slot. -/
def Part.lowestFree (s : Part) : Option Nat := s.slots.findIdx? Option.isNone

/-- R39: the starting values of a record. -/
def InsertArgs.record (a : InsertArgs) (owner : Port) (tag : Nat) (kind : RecordKind) (g : Segment)
    (station : StationState) : Record where
  tag := tag
  owner := owner
  shared := (yesNoOf a.shared).getD false
  kind := kind
  segment := g
  station := a.station.toNat
  object := a.object.toNat
  length := a.length.toNat
  period := a.period.toNat
  phase := a.phase.toNat
  countdown := if a.period.toNat = 0 then none else some a.phase.toNat
  state := .pending
  condition := conditionFor station
  age := 0
  freshnessLimit := if freshnessApplies kind a.period.toNat then some a.freshnessLimit.toNat else none
  retryBudget := budgetOf a.retryBudget.toNat
  errorCount := 0
  sequenceBit := false
  dirty := kind.outputClass
  rewritten := false
  missed := false
  noticeMode := (noticeOf a.noticeMode).getD .state
  expected := a.expected
  value := if kind.outputClass then some a.value else none
  staged := none
  guardPhase := .closed
  guardToken := none
  tokenCounter := if kind = .guarded then some 255 else none
  silentRetire := false
  reasons := .empty

/-- R36, R38, R39: INSERT of a block whose fields pass their checks. The station is read as the directory stands (R156), also
while the directory's part of a teardown waits and the segment is in OFF or FAULT already (log 39). -/
def Part.insertChecked (s : Part) (p : Port) (tag : Nat) (a : InsertArgs) (kind : RecordKind) (g : Segment) :
    Part × Answer :=
  if kind.outputClass && s.routeHeld g a.station.toNat a.object.toNat then (s, .bare .routeTaken)
  else
    match s.lowestFree with
    | none => (s, .bare .tableFull)
    | some n =>
      (s.withRecord n (a.record p tag kind g (s.stationState g a.station.toNat)), ⟨.done, num8 n⟩)

/-- R36: the checks of INSERT, in order. -/
def Part.ownInsert (s : Part) (p : Port) (f : RequestFrame) : Part × Answer :=
  if f.tag = 0 then (s, .bare .badTag)
  else if (s.slotOfTag f.tag).isSome then (s, .bare .tagInUse)
  else
    match insertArgs f.args with
    | none => (s, .bare .badRequest)
    | some a =>
      match a.failing with
      | some offset => (s, .badField offset)
      | none =>
        match kindOf a.kind, segmentOf a.segment with
        | some kind, some g => s.insertChecked p f.tag a kind g
        | _, _ => (s, .badField 0)

/-! ### The checks shared by AMEND, WRITE, RESUME, RESTART and RETIRE -/

/-- R40, R44, R46, R49, checks 1 to 3: the tag, its binding, and the owner. -/
def Part.findOwned (s : Part) (p : Port) (tag : Nat) : Except Answer (Nat × Record) :=
  match s.findTag tag with
  | .error a => .error a
  | .ok (n, r) => if r.owner ≠ p ∧ r.shared = false then .error (.bare .notOwner) else .ok (n, r)

/-- Run a request on the record it names, once checks 1 to 3 have passed. -/
def Part.onOwned (s : Part) (p : Port) (tag : Nat) (f : Nat → Record → Part × Answer) : Part × Answer :=
  match s.findOwned p tag with
  | .error a => (s, a)
  | .ok (n, r) => f n r

/-! ### AMEND -/

/-- R40 to R43: the record with the named changes applied, before the identity comparison. -/
def AmendArgs.apply (a : AmendArgs) (r : Record) : Record :=
  let budget := (a.retryBudget.map budgetOf).getD r.retryBudget
  { r with
    period := a.newPeriod r
    phase := a.newPhase r
    countdown :=
      if a.period.isSome || a.phase.isSome then
        if a.newPeriod r = 0 then none else some (a.newPhase r)
      else r.countdown
    freshnessLimit := a.newLimit r
    retryBudget := budget
    errorCount := if a.retryBudget.isSome && decide (budget ≤ r.errorCount) then budget - 1 else r.errorCount
    noticeMode := (a.noticeMode.bind noticeOf).getD r.noticeMode
    shared := (a.shared.bind yesNoOf).getD r.shared
    expected := a.expected.getD r.expected }

/-- R43: an expected identity that AMEND sets is compared with the identity of the PRESENT station. -/
def Part.amendRecord (s : Part) (n : Nat) (r : Record) (a : AmendArgs) : Part :=
  let r' := a.apply r
  if (a.expected.bind id).isSome && s.identityDiffers r' then
    if r.state.served then
      (s.dequeue r.segment n).put n { r' with state := .halted, condition := .identityMismatch } [.halted]
    else s.withRecord n { r' with condition := .identityMismatch }
  else s.withRecord n r'

/-- R40: the checks of AMEND, in order. -/
def Part.ownAmend (s : Part) (p : Port) (f : RequestFrame) : Part × Answer :=
  s.onOwned p f.tag fun n r =>
    if !r.state.active then (s, .bare .wrongState)
    else
      match amendArgs f.args with
      | none => (s, .bare .badRequest)
      | some a =>
        match a.failing r with
        | some offset => (s, .badField offset)
        | none => (s.amendRecord n r a, .bare .done)

/-! ### WRITE -/

/-- R44: is a STORE or a STAGE of the record in flight? -/
def Part.storing (s : Part) (n : Nat) (r : Record) : Bool :=
  match (s.engine r.segment).inFlightKind n with
  | some .store | some .stage => true
  | _ => false

/-- R44: WRITE. -/
def Part.ownWrite (s : Part) (p : Port) (f : RequestFrame) : Part × Answer :=
  s.onOwned p f.tag fun n r =>
    if !r.kind.outputClass || !r.state.active then (s, .bare .wrongState)
    else if f.args.length ≠ r.length then (s, .badField 0)
    else
      (s.withRecord n { r with value := some f.args, dirty := true, rewritten := r.rewritten || s.storing n r },
        .bare .done)

/-! ### RESUME and RESTART -/

/-- R46: the record that RESUME returns to PENDING. -/
def Part.resumed (s : Part) (r : Record) : Record :=
  { r with
    state := .pending
    errorCount := 0
    condition := conditionFor (s.stationState r.segment r.station)
    dirty := r.dirty || r.kind == .output }

/-- R133: what RESTART adds on a GUARDED record with an open write. -/
def Record.restartGuard (r : Record) : Record :=
  match r.guardPhase with
  | .closed => r
  | .stage => { r with guardPhase := .closed, guardToken := none, staged := none, dirty := true }
  | .verify | .commit | .cancel => { r with guardPhase := .cancel, dirty := true }

/-- R46, checks 4 and 5, and the return to PENDING. -/
def Part.ownReturn (s : Part) (p : Port) (f : RequestFrame) (after : Record → Record) : Part × Answer :=
  s.onOwned p f.tag fun n r =>
    if r.state ≠ .halted then (s, .bare .wrongState)
    else if s.identityDiffers r then (s, .bare .wrongState)
    else (s.withRecord n (after (s.resumed r)), .bare .done)

/-! ### RETIRE -/

/-- R50: does the record owe a CANCEL, given the kind of its exchange in flight or last in flight? -/
def Record.cancelOwed (r : Record) (exchange : Option ExchangeKind) : Bool :=
  r.kind == .guarded &&
    (match r.guardPhase with
      | .verify | .commit | .cancel => true
      | .closed | .stage => exchange == some .stage)

/-- R49, R50: may an owed CANCEL be placed: station PRESENT, segment RUNNING or HELD? -/
def Part.cancelPlaceable (s : Part) (r : Record) : Bool :=
  s.present r.segment r.station && (s.control r.segment).state.queues

/-- R50, R136: the owed CANCEL is placed, and the guard phase becomes CANCEL. -/
def Part.oweCancel (s : Part) (n : Nat) (r : Record) : Part :=
  (s.withRecord n { r with state := .retiring, guardPhase := .cancel }).placeOwedCancel r.segment n

/-- R49: an accepted RETIRE. -/
def Part.retireRecord (s : Part) (n : Nat) (r : Record) : Part × Answer :=
  let s₁ := s.dequeue r.segment n
  if s.inFlight n r then (s₁.withRecord n { r with state := .retiring }, .bare .accepted)
  else if r.cancelOwed none then
    if s.cancelPlaceable r then (s₁.oweCancel n r, .bare .accepted)
    else (s₁.put n { r with state := .retired, condition := .cancelUnconfirmed } [.retired], .bare .done)
  else (s₁.put n { r with state := .retired } [.retired], .bare .done)

/-- R49: the checks of RETIRE. -/
def Part.ownRetire (s : Part) (p : Port) (f : RequestFrame) : Part × Answer :=
  s.onOwned p f.tag fun n r => if r.state.active then s.retireRecord n r else (s, .bare .wrongState)

/-! ### PURGE -/

/-- R52: the records of the caller with nothing in flight. -/
def Part.purgeFreed (s : Part) (p : Port) : List Nat :=
  s.slotsWhere fun n r => r.owner == p && !s.inFlight n r

/-- R52: the records of the caller with an exchange in flight. -/
def Part.purgeSilenced (s : Part) (p : Port) : List Nat :=
  s.slotsWhere fun n r => r.owner == p && s.inFlight n r

/-- R52: a purged record with an exchange in flight becomes RETIRING with silent retire and leaves the Due Queue and its
owner's Attention List; its reason set is kept. -/
def Part.silence (s : Part) (n : Nat) : Part :=
  match s.record n with
  | none => s
  | some r =>
    ((s.dequeue r.segment n).withRecord n { r with state := .retiring, silentRetire := true }).updatePort r.owner
      fun u => { u with attention := u.attention.filter (· != n) }

/-- R52, R180: PURGE. -/
def Part.ownPurge (s : Part) (p : Port) : Part × Answer :=
  let freed := s.purgeFreed p
  let silenced := s.purgeSilenced p
  (freed.foldl Part.release (silenced.foldl Part.silence s), ⟨.done, be16 freed.length ++ be16 silenced.length⟩)

/-! ### The commands -/

/-- INSERT (R36 to R39). -/
def execInsert (p : Port) (s : State) : Host.Outcome State Fault Refusal :=
  s.claim fun s => s.takeRequest p .insert (s.ownInsert p)

/-- AMEND (R40 to R43). -/
def execAmend (p : Port) (s : State) : Host.Outcome State Fault Refusal :=
  s.claim fun s => s.takeRequest p .amend (s.ownAmend p)

/-- WRITE (R44, R45, R131). -/
def execWrite (p : Port) (s : State) : Host.Outcome State Fault Refusal :=
  s.claim fun s => s.takeRequest p .write (s.ownWrite p)

/-- RESUME (R46, R132). -/
def execResume (p : Port) (s : State) : Host.Outcome State Fault Refusal :=
  s.claim fun s => s.takeRequest p .resume fun f => s.ownReturn p f id

/-- RESTART (R47, R133). -/
def execRestart (p : Port) (s : State) : Host.Outcome State Fault Refusal :=
  s.claim fun s => s.takeRequest p .restart fun f => s.ownReturn p f Record.restartGuard

/-- RETIRE (R49, R50, R136). -/
def execRetire (p : Port) (s : State) : Host.Outcome State Fault Refusal :=
  s.claim fun s => s.takeRequest p .retire (s.ownRetire p)

/-- PURGE (R52, R180). -/
def execPurge (p : Port) (s : State) : Host.Outcome State Fault Refusal :=
  s.claim fun s => s.takeRequest p .purge fun _ => s.ownPurge p

end Sys2Proof.Machine
end

