-- ==== Sys2Proof/Machine/Outcomes.lean ====
section
/-! DEFINITION. What an outcome does to its record (chapters 5 and 6) and to its station (chapter 7). -/

namespace Sys2Proof.Machine

/-! ### The parts of an outcome's effect -/

/-- R86, R104: where the record goes after its outcome. -/
inductive Placement where
  | done
  | proceed
  | carry
deriving DecidableEq, Repr

/-- What an outcome makes of its record: the record, the reasons raised, and the placement. -/
structure Effect where
  record : Record
  reasons : List Reason
  placement : Placement
deriving DecidableEq, Repr

/-- R110: the condition that names a record error. -/
def RecordError.condition : RecordError → Condition
  | .checkError => .checkError
  | .frameError => .frameError
  | .wrongStation => .wrongStation
  | .shortReply => .shortReply
  | .longReply => .longReply

/-- R107, R127: APPLIED is raised under STATE+VALUE. -/
def Record.appliedReasons (r : Record) : List Reason :=
  if r.noticeMode = .stateValue then [.applied] else []

/-- R106: CHANGED is raised under STATE+VALUE when the new mirror differs from the old one or from its absence. -/
def Record.changedReasons (r : Record) (payload : List Byte) : List Reason :=
  if r.noticeMode = .stateValue ∧ r.value ≠ some payload then [.changed] else []

/-- R29, R105: the reason of a good exchange. -/
def RecordState.goodReasons : RecordState → List Reason
  | .pending => [.arrived]
  | .stale => [.fresh]
  | .live | .halted | .retiring | .retired => []

/-- R29, R105: a good outcome: age and error count 0, condition OK, LIVE. -/
def Record.good (r : Record) : Record :=
  { r with age := 0, errorCount := 0, condition := .ok, state := .live }

/-- R108, R109, R110, R113: an outcome of a STORE other than ACCEPT restores dirty; other records keep theirs. -/
def Record.restored (r : Record) : Record := { r with dirty := r.dirty || r.kind == .output }

/-- R112, R113: a record error or a TIMEOUT leaves it unsure whether the node applied the STORE. Where rewritten is set, the
repeat's ACCEPT may be that of the value replaced (log 31). -/
def Record.noteMissed (r : Record) : Record := { r with missed := r.missed || (r.kind == .output && r.rewritten) }

/-- R8, R112: the ACCEPT of a repeat restores dirty where a WRITE was taken during the STORE that it repeats: one of the
restoring outcomes of chapter 5 (log 31). -/
def Record.restoreMissed (r : Record) : Record := { r with dirty := r.dirty || r.missed, missed := false }

/-- R8, R107: an ACCEPT of a STORE toggles the sequence bit, and dirty stays or becomes set where it finds rewritten set
(log 11). -/
def Record.storeAccepted (r : Record) : Record :=
  { r with sequenceBit := !r.sequenceBit, dirty := r.dirty || r.rewritten }

/-- R127, R130, R133, R134, R137: the guarded write ends: phase NONE, token and staged copy discarded. -/
def Record.closeWrite (r : Record) : Record :=
  { r with guardPhase := .closed, guardToken := none, staged := none }

/-- R125: does the VERIFY echo equal the guard token and the staged copy? -/
def Record.echoEqual (r : Record) (payload : List Byte) : Bool :=
  match r.guardToken, r.staged with
  | some t, some v => payload == BitVec.ofNat 8 t :: v
  | _, _ => false

/-- R109, R125, R129: the record halts with this condition. -/
def Record.halt (r : Record) (c : Condition) : Effect :=
  ⟨{ r with state := .halted, condition := c }, [.halted], .done⟩

/-! ### The outcome on a served record whose station is PRESENT (sections 5.3 to 5.6, and 6.2 to 6.7) -/

/-- R105 to R107, R124, R125, R127, R134: the good outcomes and the phase results; `none` for every other result. -/
def Record.success (r : Record) (k : ExchangeKind) (result : ExchangeResult) : Option Effect :=
  match k, result with
  | .fetch, .data payload =>
    some ⟨{ r with value := some payload }.good, r.state.goodReasons ++ r.changedReasons payload, .done⟩
  | .store, .accept => some ⟨r.storeAccepted.restoreMissed.good, r.state.goodReasons ++ r.appliedReasons, .done⟩
  | .stage, .accept => some ⟨{ r with guardPhase := .verify, errorCount := 0, condition := .ok }, [], .proceed⟩
  | .verify, .data payload =>
    some (if r.echoEqual payload then
      ⟨{ r with guardPhase := .commit, errorCount := 0, condition := .ok }, [], .proceed⟩
    else r.halt .verifyMismatch)
  | .commit, .accept => some ⟨r.closeWrite.good, r.state.goodReasons ++ r.appliedReasons, .done⟩
  | .cancel, .accept => some ⟨{ r.closeWrite with errorCount := 0, condition := .ok }, [], .proceed⟩
  | .cancel, .refuse => some ⟨{ r.closeWrite with errorCount := 0 }, [], .proceed⟩
  | _, _ => none

/-- R110: a record error. -/
def Record.onError (r : Record) (e : RecordError) : Effect :=
  let r₁ := { r.restored.noteMissed with errorCount := r.errorCount + 1 }
  if r.retryBudget ≤ r.errorCount + 1 then r₁.halt .exhausted
  else ⟨{ r₁ with condition := e.condition }, [], .carry⟩

/-- R108, R109, R110, R113, R129: the failures, which act alike in every exchange. -/
def Record.failure (r : Record) (result : ExchangeResult) : Effect :=
  match result with
  | .defer => ⟨{ r.restored with condition := .deferred }, [], .carry⟩
  | .refuse => r.restored.halt .refused
  | .timeout => ⟨{ r.restored.noteMissed with condition := .timeout }, [], .carry⟩
  | .error e => r.onError e
  | .data _ | .accept | .ident _ => r.onError .frameError

/-- R102, case 4: the outcome of a PENDING, LIVE or STALE record on a PRESENT station. -/
def Record.served (r : Record) (k : ExchangeKind) (result : ExchangeResult) : Effect :=
  (r.success k result).getD (r.failure result)

/-! ### The outcome on a HALTED record, or on one whose station has left (R32, R115, R130) -/

/-- R32, R115, R130: the outcome keeps the record in step with the node; state, condition and error count stay. `dirtyAfter`
is what an accepted STORE leaves dirty at: R32 and R115 differ (log 11). -/
def Record.aside (r : Record) (dirtyAfter : Bool) (k : ExchangeKind) (result : ExchangeResult) : Verdict :=
  match k, result with
  | .fetch, .data payload => ({ r with value := some payload, age := 0 }, r.changedReasons payload)
  | .store, .accept =>
    (Record.restoreMissed { r with sequenceBit := !r.sequenceBit, age := 0, dirty := dirtyAfter }, r.appliedReasons)
  | .store, .timeout | .store, .error _ => ({ r.noteMissed with dirty := true }, [])
  | .store, _ => ({ r with dirty := true }, [])
  | .stage, .accept => ({ r with guardPhase := .verify }, [])
  | .verify, .data payload => if r.echoEqual payload then ({ r with guardPhase := .commit }, []) else (r, [])
  | .commit, .accept => ({ r.closeWrite with age := 0 }, r.appliedReasons)
  | .cancel, .accept | .cancel, .refuse => (r.closeWrite, [])
  | _, _ => (r, [])

/-! ### The outcome at the Table Controller (R102) -/

/-- R121, R135: the phase that a guarded exchange belongs to. -/
def ExchangeKind.phase : ExchangeKind → Option GuardPhase
  | .stage => some .stage
  | .verify => some .verify
  | .commit => some .commit
  | .cancel => some .cancel
  | .fetch | .store | .probe => none

/-- R135: a guarded outcome is superseded when the record's phase no longer names its kind, or its token differs. -/
def Record.supersedes (r : Record) (x : Exchange) : Bool :=
  match x.kind.phase with
  | some p => r.guardPhase != p || r.guardToken != x.token
  | none => false

/-- R86: carry out a placement. A segment that is torn down keeps an empty queue (log 16). -/
def Part.place (s : Part) (g : Segment) (n : Nat) (p : Placement) : Part :=
  if (s.control g).state.queues then
    match p with
    | .done => s
    | .proceed => s.placeContinue g n
    | .carry => s.placeCarry g n
  else s

/-- R33, R50, R137: the outcome of a RETIRING record. `torn` says that the Table Controller's part of a teardown takes it:
it ends as it would have before the teardown (R168), so a cancel is owed on a PRESENT station whatever the segment is now;
its entry in the Due Queue would be removed in the same claim, and is not made. -/
def Part.retiringOutcome (s : Part) (n : Nat) (r : Record) (o : ExchangeOutcome) (present torn : Bool) : Part :=
  if r.silentRetire then s.release n
  else if o.exchange.owedCancel then
    if o.result = .accept then
      s.put n { r.closeWrite with state := .retired, condition := .cancelled } [.retired]
    else s.put n { r with state := .retired, condition := .cancelUnconfirmed } [.retired]
  else if r.cancelOwed (some o.exchange.kind) then
    if present && torn then s.withRecord n { r with guardPhase := .cancel }
    else if present && (s.control r.segment).state.queues then s.oweCancel n r
    else s.put n { r with state := .retired, condition := .cancelUnconfirmed } [.retired]
  else s.put n { r with state := .retired } [.retired]

/-- R102, R135: the outcome on the record it served. `present` is whether its station is PRESENT, and `torn` whether a
teardown takes it (R168). -/
def Part.outcomeOn (s : Part) (n : Nat) (r : Record) (o : ExchangeOutcome) (present torn : Bool) : Part :=
  let k := o.exchange.kind
  match r.state with
  | .retiring => s.retiringOutcome n r o present torn
  | .retired => s
  | .halted =>
    if r.supersedes o.exchange then s
    else
      let v := r.aside (r.dirty || r.rewritten) k o.result
      s.put n v.1 v.2
  | .pending | .live | .stale =>
    if r.supersedes o.exchange then s
    else if !present then
      let v := r.aside r.rewritten k o.result
      s.put n v.1 v.2
    else
      let e := r.served k o.result
      (s.put n e.record e.reasons).place r.segment n e.placement

/-- R102: the Table Controller takes one outcome, on its own or in its part of a teardown (`torn`); it is no longer waiting,
so the record is no longer in flight. -/
def Part.takeOutcome (s : Part) (o : ExchangeOutcome) (torn : Bool) : Part :=
  match o.exchange.slot with
  | none => s
  | some n =>
    match s.record n with
    | none => s
    | some r => s.outcomeOn n r o (o.standing.getD (s.present r.segment r.station)) torn

/-- R26, R102: the oldest outcome handed to the Table Controller is taken. Taken after the segment has entered OFF or FAULT
and before the teardown's part, it meets the segment as it stands (R50, R136; log 37). -/
def Part.nextOutcome (s : Part) (g : Segment) : Part :=
  match (s.engine g).toTable with
  | [] => s
  | o :: rest => (s.updateEngine g fun e => { e with toTable := rest }).takeOutcome o false

/-- OUTCOME_TAKEN (R102). -/
def execOutcomeTaken (g : Segment) (s : State) : Host.Outcome State Fault Refusal :=
  s.claim (·.nextOutcome g)

/-! ### The outcome at the Station Directory (section 7.2) -/

/-- R144: a station goes silent: SILENT while records are routed to it, ABSENT and forgotten otherwise. -/
def Part.silenceStation (s : Part) (g : Segment) (n : Nat) (e : Station) (count : Nat) : Part :=
  let entry : Station := if s.refCount g n = 0 then ⟨.absent, none, 0⟩ else ⟨.silent, e.identity, count⟩
  ((s.withStation g n entry).departRecords g n .stationSilent).setFlags g

/-- R143: what a result does to the silence counter; none where a TIMEOUT counts. -/
def ExchangeResult.silenceAfter (r : ExchangeResult) (count : Nat) : Nat :=
  match r with
  | .timeout => count + 1
  | .error .wrongStation => count
  | .data _ | .accept | .defer | .refuse | .ident _ | .error _ => 0

/-- R143, R144, R146: the outcome of a record exchange at its station. -/
def Part.stationResult (s : Part) (g : Segment) (o : ExchangeOutcome) : Part :=
  match s.station g o.exchange.station with
  | none => s
  | some e =>
    if e.state = .present then
      let count := o.result.silenceAfter e.silence
      if o.result = .timeout ∧ (s.control g).config.silenceLimit ≤ count then
        s.silenceStation g o.exchange.station e count
      else s.withStation g o.exchange.station { e with silence := count }
    else s

/-- R146, R147, R149: the outcome of a PROBE at its station. -/
def Part.probeResult (s : Part) (g : Segment) (o : ExchangeOutcome) : Part :=
  match s.station g o.exchange.station, o.result with
  | some e, .ident identity =>
    match e.state with
    | .absent => s.attach g o.exchange.station identity true
    | .silent => s.attach g o.exchange.station identity (e.identity != some identity)
    | .present | .barred => s
  | _, _ => s

/-- R73: is this the outcome of a PROBE? -/
def ExchangeOutcome.isProbe (o : ExchangeOutcome) : Bool := o.exchange.kind == .probe

/-- The Station Directory takes one outcome. -/
def Part.stationTakes (s : Part) (g : Segment) (o : ExchangeOutcome) : Part :=
  if o.isProbe then s.probeResult g o else s.stationResult g o

/-- R26: the oldest outcome handed to the Station Directory is taken, where it is a PROBE's as asked. -/
def Part.nextStationOutcome (s : Part) (g : Segment) (probe : Bool) : Part :=
  match (s.engine g).toStations with
  | [] => s
  | o :: rest =>
    if o.isProbe == probe then (s.updateEngine g fun e => { e with toStations := rest }).stationTakes g o else s

/-- STATION_OUTCOME (R143). -/
def execStationOutcome (g : Segment) (s : State) : Host.Outcome State Fault Refusal :=
  s.claim (·.nextStationOutcome g false)

/-- PROBE_OUTCOME (R146). -/
def execProbeOutcome (g : Segment) (s : State) : Host.Outcome State Fault Refusal :=
  s.claim (·.nextStationOutcome g true)

end Sys2Proof.Machine
end

