-- ==== Sys2Proof/Machine/Life.lean ====
section
/-! DEFINITION. The segment's life apart from the commands (sections 8.4 and 8.6), and reset. -/

namespace Sys2Proof.Machine

/-! ### The settle timer (R163) -/

/-- R163, R164: the expiry moves POWERING to SCANNING, and the scan begins at station 1. It does not wait for the parts of
an earlier teardown (log 35). -/
def Part.expireSettle (s : Part) (g : Segment) : Part :=
  if (s.control g).state = .powering ∧ (s.control g).settleTimer.isSome then
    ((s.updateControl g fun c => { c with settleTimer := none }).enterState g .scanning).scanFrom g 1
  else s

/-- SETTLE_TIMER_EXPIRY. -/
def execSettleTimerExpiry (g : Segment) (s : State) : Host.Outcome State Fault Refusal :=
  s.claim (·.expireSettle g)

/-! ### The supply fault (R167) -/

/-- R167: SxFLT takes a level. Asserted in a state in which it is watched, it moves the segment to FAULT. The table has no
row of its own for its falling back, which changes nothing but the level (log 8). -/
def Part.supply (s : Part) (g : Segment) (level : Bool) : Part :=
  let s₁ := s.updateControl g fun c => { c with faultIn := level }
  if level && (s.control g).state.powered then s₁.tearDown g .fault else s₁

/-- SUPPLY_FAULT. The input changes its level while RESETn is low too; the segment is OFF then, so nothing else follows. -/
def execSupplyFault (g : Segment) (level : Bool) (s : State) : Host.Outcome State Fault Refusal :=
  .next { s with part := s.part.supply g level }

/-! ### The Station Directory's part of the teardown (R169) -/

/-- R169: a station at the teardown. -/
def tornStation (used : Bool) (e : Station) : Station :=
  match e.state with
  | .barred => { e with silence := 0 }
  | .present | .silent | .absent => ⟨.absent, if used then e.identity else none, 0⟩

/-- R150, R169: does the teardown change the state of some station? -/
def SegmentUnit.someStationLost (u : SegmentUnit) : Bool :=
  u.stations.any fun e => e.state == .present || e.state == .silent

/-- R168: an outcome that the Table Controller has not taken keeps the standing its station has now (log 15). -/
def Part.holdStanding (s : Part) (g : Segment) : Part :=
  s.updateEngine g fun e =>
    { e with
      toTable := e.toTable.map fun o =>
        { o with standing := some (o.standing.getD (s.present g o.exchange.station)) } }

/-- R169: the stations of the segment at the teardown. -/
def Part.tearStations (s : Part) (g : Segment) : Part :=
  let torn := (s.seg g).stations.mapIdx fun i e => tornStation (s.refCount g (i + 1) != 0) e
  let s₁ := s.withSeg g { s.seg g with stations := torn }
  if (s.seg g).someStationLost then s₁.setFlags g else s₁

/-- R169: the outcomes handed over and not yet taken are taken, oldest first; they are part of one claim (R175). -/
def Part.stationBacklog (s : Part) (g : Segment) : Part :=
  let taken := (s.engine g).toStations.foldl (fun s o => s.stationTakes g o)
    (s.updateEngine g fun e => { e with toStations := [] })
  s.inSlotOrder taken

/-- R169: the part is taken: the outcomes handed over before it and not yet taken come first. The order of this part and
the Table Controller's can show in a record's condition (log 33). -/
def Part.stationTeardown (s : Part) (g : Segment) : Part :=
  match (s.control g).stationTeardowns with
  | 0 => s
  | k + 1 =>
    let s₁ := (s.updateControl g fun c => { c with stationTeardowns := k }).stationBacklog g
    (s₁.holdStanding g).tearStations g

/-- STATION_TEARDOWN. -/
def execStationTeardown (g : Segment) (s : State) : Host.Outcome State Fault Refusal :=
  s.claim (·.stationTeardown g)

/-! ### The Table Controller's part of the teardown (R170) -/

/-- R139, R170: a record at the teardown. `store` says whether a STORE of it was in flight. A RETIRED record keeps its dirty
(R34; log 34). -/
def tornVerdict (store : Nat → Bool) (n : Nat) (r : Record) : Verdict :=
  let r₀ := if r.kind = .output && store n then { r with dirty := true } else r
  match r.state with
  | .pending | .live | .stale =>
    if r.kind = .guarded ∧ r.guardPhase ≠ .closed then
      ({ r₀ with state := .halted, condition := .segmentDown }, [.halted])
    else if r.state = .live then ({ r₀ with state := .stale, condition := .segmentDown }, [.stale])
    else ({ r₀ with condition := .segmentDown }, [])
  | .halted => (r₀, [])
  | .retiring =>
    if r.silentRetire then (r₀, [])
    else ({ r₀ with state := .retired, condition := .cancelUnconfirmed }, [.retired])
  | .retired => (r, [])

/-- R168: was a STORE of this slot abandoned? -/
def abandonedStore (x : Option Exchange) (n : Nat) : Bool :=
  x.any fun x => x.kind == .store && x.slot == some n

/-- R170: the records of the segment at the teardown; the slots of RETIRING records with silent retire are released. -/
def Part.tearRecords (s : Part) (g : Segment) (abandoned : Option Exchange) : Part :=
  let freed := s.slotsWhere fun _ r => r.segment == g && r.state == .retiring && r.silentRetire
  let s₁ := s.forRecords (fun _ r => r.segment == g) (tornVerdict (abandonedStore abandoned))
  freed.foldl Part.release (s₁.updateEngine g fun e => { e with active := [], held := [] })

/-- R168: the outcomes handed over and not yet taken are taken, oldest first, ahead of the teardown's effects. -/
def Part.recordBacklog (s : Part) (g : Segment) : Part :=
  (s.engine g).toTable.foldl (fun s o => s.takeOutcome o true) (s.updateEngine g fun e => { e with toTable := [] })

/-- R168, R170: the part is taken: the outcomes handed over before it and not yet taken come first, as if taken before the
teardown (log 37). All of it is one claim, so the slots on which it raises a reason join the lists in ascending order (R175;
log 36). -/
def Part.recordTeardown (s : Part) (g : Segment) : Part :=
  match (s.control g).recordTeardowns with
  | [] => s
  | abandoned :: rest =>
    let s₁ := s.updateControl g fun c => { c with recordTeardowns := rest }
    s₁.inSlotOrder ((s₁.recordBacklog g).tearRecords g abandoned)

/-- RECORD_TEARDOWN. -/
def execRecordTeardown (g : Segment) (s : State) : Host.Outcome State Fault Refusal :=
  s.claim (·.recordTeardown g)

/-! ### Reset (R27, R157, R173, R185, R197) -/

/-- R27: every block takes its reset state while RESETn is low; the inputs SxFLT keep their levels, and the
free tokens drawn stay drawn (log 30). -/
def Part.heldInReset (s : Part) : Part :=
  let level (g : Segment) (u : SegmentUnit) : SegmentUnit :=
    { u with control := { u.control with faultIn := (s.control g).faultIn } }
  { Part.reset with
    segA := level .a .reset
    segB := level .b .reset
    resetLow := true
    freeDraws := s.freeDraws }

/-- RESET: RESETn falls. -/
def execReset (s : State) : Host.Outcome State Fault Refusal :=
  .next { s with part := s.part.heldInReset }

/-- POWER_ON: every block is in its reset state until RESETn first rises. -/
def execPowerOn (s : State) : Host.Outcome State Fault Refusal :=
  .next { s with part := s.part.heldInReset }

/-- R197: RESETn rises: ADR is sampled, and the blocks begin to take claims. RESETn high already cannot rise (log 3). -/
def Part.riseFromReset (s : Part) (adr : Bool) : Part :=
  if s.resetLow then { s with resetLow := false, port1Address := Config.portAddress adr } else s

/-- RESET_RELEASE. -/
def execResetRelease (adr : Bool) (s : State) : Host.Outcome State Fault Refusal :=
  .next { s with part := s.part.riseFromReset adr }

end Sys2Proof.Machine
end

