-- ==== Sys2Proof/Machine/Ports.lean ====
section
/-! DEFINITION. The transactions of Port 0 and the transfers of Port 1 (sections 10.1 and 10.4 to 10.7). -/

namespace Sys2Proof.Machine

/-! ### The buffer (R186) -/

/-- R188: a complete frame enters the port: it is SUBMITTED when it passes the port's checks, and answered BAD_REQUEST by
the port itself when it does not. -/
def Buffer.take (f : RequestFrame) : Buffer :=
  if f.admitted then .submitted f else .answered (f.respond (.bare .badRequest))

/-- R186, R195, R198: the buffer after a run of request bytes: only an EMPTY port takes a frame, and only a complete one. -/
def Buffer.submit (b : Buffer) (bytes : List Byte) : Buffer :=
  match b, frameOf bytes with
  | .empty, some f => Buffer.take f
  | .empty, none => .empty
  | .submitted f, _ => .submitted f
  | .answered r, _ => .answered r

/-- R192: NOT_READY carries the sequence and code of the frame that stands SUBMITTED, and 0 when the port is EMPTY. -/
def Buffer.outgoing : Buffer → List Byte
  | .empty => responseFrame .notReady 0 0 []
  | .submitted f => responseFrame .notReady f.sequence f.code []
  | .answered r => r

/-- R196, R199: the buffer after so many bytes of the frame were clocked out: a response is collected with its last byte. -/
def Buffer.collect (b : Buffer) (clocked : Nat) : Buffer :=
  match b with
  | .answered r => if r.length ≤ clocked then .empty else .answered r
  | .empty => .empty
  | .submitted f => .submitted f

/-- R196, R199: so many bytes of a frame, 0x00 after its end. -/
def clockOut (frame : List Byte) (clocked : Nat) : List Byte :=
  (frame ++ List.replicate clocked 0#8).take clocked

/-- R186: is the port EMPTY? -/
def Buffer.isEmpty : Buffer → Bool
  | .empty => true
  | .submitted _ | .answered _ => false

/-- R194: the code of the buffer state in the port status byte. -/
def Buffer.stateCode : Buffer → Nat
  | .empty => 0
  | .submitted _ => 1
  | .answered _ => 2

/-! ### Bits on the two buses (R193, R197) -/

/-- R193, R197: the bits of a byte on a bus, most significant first. -/
def busBits (b : Byte) : List Bool := [7, 6, 5, 4, 3, 2, 1, 0].map b.getLsbD

/-- R193, R197: the byte of eight bits on a bus, most significant first. -/
def byteOf (bits : List Bool) : Byte := BitVec.ofFnLE fun i : Fin 8 => bits.getD (7 - i) false

/-- R193, R197: the bytes of the bits on a bus, most significant first; the bits of a byte that is not complete are no byte. -/
def bytesOf : List Bool → List Byte
  | b₇ :: b₆ :: b₅ :: b₄ :: b₃ :: b₂ :: b₁ :: b₀ :: rest => byteOf [b₇, b₆, b₅, b₄, b₃, b₂, b₁, b₀] :: bytesOf rest
  | _ => []

/-- R193: the bits that Port 0 takes from P0SDI, one on each rising edge of P0SCK. The line is given as the levels of P0SCK and
P0SDI while P0CSn is low, and `clock` is the level of P0SCK before them: 0 at the fall of P0CSn (mode 0). -/
def risingBits (clock : Bool) : List (Bool × Bool) → List Bool
  | [] => []
  | (sck, sdi) :: line => if !clock && sck then sdi :: risingBits sck line else risingBits sck line

/-- R193: the falling edges among the levels of P0SCK. -/
def fallingEdges (clock : Bool) : List Bool → Nat
  | [] => 0
  | sck :: line => (clock && !sck).toNat + fallingEdges sck line

/-! ### Port 0 (R193 to R196) -/

/-- R194: the operation that a transaction's first byte chooses, for the bytes that follow it. -/
def port0Operation (operation : Byte) (following : List Byte) : Instr :=
  if operation = 0xA1 then .submit (.whole following)
  else if operation = 0xA2 then .collect (.whole following.length)
  else if operation = 0xA3 then .poll (.whole following.length)
  else .unknownOperation operation (.whole following.length)

/-- R194: the command that a whole transaction is, by the bytes from the processor: the operation byte and those after it.
A transaction that ends before its operation byte is the two edges of P0CSn, and takes nothing. -/
def port0Transaction : List Byte → Option Instr
  | [] => none
  | operation :: following => some (port0Operation operation following)

/-- R193, R194: the command that the levels of P0SCK and P0SDI while P0CSn is low make. -/
def port0Command (line : List (Bool × Bool)) : Option Instr := port0Transaction (bytesOf (risingBits false line))

/-- R194: the port status byte of Port 0. -/
def PortUnit.statusByte (u : PortUnit) : Byte :=
  BitVec.ofNat 8 (u.buffer.stateCode + 4 * (!u.attention.isEmpty).toNat + 8 * u.flagA.toNat + 16 * u.flagB.toNat)

/-- R195: the link answer: PORT_BUSY when the port was not EMPTY at the test (log 18). -/
def Buffer.linkAnswer (b : Buffer) : Byte := if b.isEmpty then 0x00 else Status.portBusy.code

/-- R194: P0CSn falls: a transaction begins, and the port status byte is sampled and begins to go out. A transaction before it
that has not taken its operation byte has ended, having done nothing. -/
def Part.select (s : Part) : Part := { s with port0Phase := .begun, port0Out := [s.port0.statusByte] }

/-- R193, R194: P0CSn rises: the transaction under way ends, and P0SDO is not driven. -/
def Part.deselect (s : Part) : Part := { s with port0Phase := .idle }

/-- The operation byte is taken: these bytes go out on P0SDO after the port status byte (R194), the last of them not to its
end where P0CSn rises within it, and the buffer becomes this. -/
def Part.transact (s : Part) (out : List Byte) (buffer : Buffer) : Part :=
  { s with
    port0 := { s.port0 with buffer := buffer }
    port0Phase := .operating
    port0Out := s.port0Out ++ out }

/-- R185, R194: what is clocked in a transaction whose falling edge has been taken; each transaction carries one operation.
Without a falling edge, as after a reset that abandoned the transaction, nothing is taken until P0CSn falls again. -/
def Part.afterFall (s : Part) (operation : Part → Part) : Part := if s.port0Phase = .begun then operation s else s

/-- R194: a Port 0 command: the falling edge, what the operation makes of the rest of the transaction, the rising edge, or all
three. -/
def Part.onPort0 {α : Type} (s : Part) (t : Spi α) (operation : α → Part → Part) : Part :=
  match t with
  | .fall => s.select
  | .rest following => s.afterFall (operation following)
  | .rise => s.deselect
  | .whole following => (s.select.afterFall (operation following)).deselect

/-- SUBMIT (R195). -/
def execSubmit (bytes : Spi (List Byte)) (s : State) : Host.Outcome State Fault Refusal :=
  s.claim (·.onPort0 bytes fun bytes s =>
    s.transact (List.replicate (bytes.length + 1) s.port0.buffer.linkAnswer) (s.port0.buffer.submit bytes))

/-- COLLECT (R196). -/
def execCollect (clocked : Spi Nat) (s : State) : Host.Outcome State Fault Refusal :=
  s.claim (·.onPort0 clocked fun clocked s =>
    s.transact (clockOut s.port0.buffer.outgoing (clocked + 1)) (s.port0.buffer.collect clocked))

/-- POLL (R196). -/
def execPoll (clocked : Spi Nat) (s : State) : Host.Outcome State Fault Refusal :=
  s.claim (·.onPort0 clocked fun clocked s => s.transact (clockOut [s.port0.statusByte] (clocked + 1)) s.port0.buffer)

/-- An operation byte that names no operation (R194): zeros are shifted out, and nothing is taken. -/
def execUnknownOperation (_operation : Byte) (clocked : Spi Nat) (s : State) : Host.Outcome State Fault Refusal :=
  s.claim (·.onPort0 clocked fun clocked s => s.transact (clockOut [] (clocked + 1)) s.port0.buffer)

/-- R193: the level of P0SDO in the transaction under way, after these levels of P0SCK since the fall of P0CSn: the first bit
stands on it from the fall on, and the next one after each falling edge, to the rise of P0CSn. With no transaction under way
it is not driven. -/
def Part.port0Level (s : Part) (clock : List Bool) : Option Bool :=
  match s.port0Phase with
  | .idle => none
  | .begun | .operating => (s.port0Out.flatMap busBits)[fallingEdges false clock]?

/-! ### Port 1 (R197 to R199) -/

/-- R197: what P1SCL and P1SDA tell the part. -/
inductive BusEvent where
  | start
  | stop
  | bit (level : Bool)
deriving DecidableEq, Repr

/-- R197: a bit is sampled as P1SCL rises. With P1SCL high, P1SDA falls in a start condition, and rises in a stop condition
(log 40). -/
def busEvent : Bool × Bool → Bool × Bool → Option BusEvent
  | (false, _), (true, sda) => some (.bit sda)
  | (true, true), (true, false) => some .start
  | (true, false), (true, true) => some .stop
  | _, _ => none

/-- R197: what the levels of P1SCL and P1SDA tell the part, from these levels before them on. -/
def busEvents (before : Bool × Bool) : List (Bool × Bool) → List BusEvent
  | [] => []
  | now :: line => (busEvent before now).toList ++ busEvents now line

/-- R197: the bits of a transfer, and the condition that ends it; none where the transfer has not ended. The last bit is the
level before that condition, at the rise of P1SCL that it needs (log 41). -/
def transferBits : List BusEvent → Option (List Bool × BusEvent)
  | [] => none
  | .bit level :: events => (transferBits events).map fun t => (level :: t.1, t.2)
  | condition :: _ => some ([], condition)

/-- R198: the way in which a transfer of these bits ends: a condition that does not stand between two bytes is a bus error. -/
def transferEnd (bits : List Bool) (condition : BusEvent) : TransferEnd :=
  if bits.length % 9 ≠ 1 then .busError else if condition = .start then .repeatedStart else .stop

/-- R197: the bytes of a transfer, most significant bit first, each with the level of its acknowledge bit. -/
def ackedBytes : List Bool → List (Byte × Bool)
  | b₇ :: b₆ :: b₅ :: b₄ :: b₃ :: b₂ :: b₁ :: b₀ :: ack :: rest =>
    (byteOf [b₇, b₆, b₅, b₄, b₃, b₂, b₁, b₀], ack) :: ackedBytes rest
  | _ => []

/-- R199: how many bytes the part sends: the processor acknowledges each after which it wants another (log 41). -/
def bytesSent (bytes : List (Byte × Bool)) : Nat :=
  min bytes.length ((bytes.takeWhile fun b => !b.2).length + 1)

/-- R197: the transfer that an address byte begins: the target address in bits 7 to 1; bit 0 is 0 for a write transfer, of
these data bytes, and 1 for a read transfer, of so many bytes. -/
def port1Transfer (addressByte : Byte) (bytes : List Byte) (ending : TransferEnd) (clocked : Nat) : Instr :=
  let address := addressByte.extractLsb' 1 7
  if addressByte.getLsbD 0 then .readTransfer address clocked else .writeTransfer address bytes ending

/-- R197: the command that a transfer of these bits is; none where it ends before its address byte. -/
def port1Command (bits : List Bool) (condition : BusEvent) : Option Instr :=
  match ackedBytes bits with
  | [] => none
  | address :: data => some (port1Transfer address.1 (data.map Prod.fst) (transferEnd bits condition) (bytesSent data))

/-- R197: the commands of the transfers, each from its start condition on. -/
def port1Transfers : List BusEvent → List Instr
  | [] => []
  | .start :: events => ((transferBits events).bind fun t => port1Command t.1 t.2).toList ++ port1Transfers events
  | .stop :: events | .bit _ :: events => port1Transfers events

/-- R197: the commands that the levels of P1SCL and P1SDA make, from both high on. -/
def port1Commands (line : List (Bool × Bool)) : List Instr := port1Transfers (busEvents (true, true) line)

/-- R198: the acknowledge bits of the data bytes of a write transfer: ACK for those taken, NACK for the others. -/
def Buffer.acks (b : Buffer) (bytes : List Byte) : List Bool :=
  if b.isEmpty then List.replicate (framePart bytes) true ++ List.replicate (bytes.length - framePart bytes) false
  else List.replicate bytes.length false

/-- Port 1 gives these acknowledge bits and sends these bytes, and its buffer becomes this. -/
def Part.transfer (s : Part) (acks : List Bool) (out : List Byte) (buffer : Buffer) : Part :=
  { s with port1 := { s.port1 with buffer := buffer }, port1Acks := acks, port1Out := out }

/-- WRITE_TRANSFER (R198): to the part's own address (R197). The ways a transfer ends all leave what was taken as it is: a
complete frame stands, and a partial one is discarded. -/
def execWriteTransfer (address : BitVec 7) (bytes : List Byte) (_ending : TransferEnd) (s : State) :
    Host.Outcome State Fault Refusal :=
  s.claim fun s =>
    if address = s.port1Address then
      s.transfer (true :: s.port1.buffer.acks bytes) [] (s.port1.buffer.submit bytes)
    else s.transfer [] [] s.port1.buffer

/-- READ_TRANSFER (R199): from the part's own address (R197). -/
def execReadTransfer (address : BitVec 7) (clocked : Nat) (s : State) : Host.Outcome State Fault Refusal :=
  s.claim fun s =>
    if address = s.port1Address then
      s.transfer [true] (clockOut s.port1.buffer.outgoing clocked) (s.port1.buffer.collect clocked)
    else s.transfer [] [] s.port1.buffer

/-- R197: the level at which the part leaves P1SDA in each bit time of the last transfer that it answered: the eight bits of a
byte that it receives are the processor's, and it drives P1SDA low for ACK and leaves it high for NACK; it sends a byte most
significant bit first, and leaves the acknowledge bit to the processor. -/
def Part.port1Levels (s : Part) : List Bool :=
  (s.port1Acks.flatMap fun ack => List.replicate 8 true ++ [!ack]) ++ s.port1Out.flatMap fun b => busBits b ++ [true]

end Sys2Proof.Machine
end

