-- ==== Sys2Proof/Machine/Reply.lean ====
section
/-! DEFINITION. The exchange on the line (sections 3.5 and 4.7): the end of the request, the reply window, the reply. -/

namespace Sys2Proof.Machine

/-! ### The request and the window (R67) -/

/-- R67: the request's last stop bit ends: SxDE is released and the reply window opens. -/
def Engine.endRequest (e : Engine) (c : SegmentConfig) : Engine :=
  match e.state, e.exchange with
  | .request left, some _ => { (e.elapse left).releaseLine with state := .wait (c.bits c.replyWindow) }
  | _, _ => e

/-- REQUEST_END. -/
def execRequestEnd (g : Segment) (s : State) : Host.Outcome State Fault Refusal :=
  s.claim fun s => s.updateEngine g (·.endRequest (s.control g).config)

/-- R67: no start bit has begun in the window: TIMEOUT. -/
def Engine.expireWindow (e : Engine) (c : SegmentConfig) : Engine :=
  match e.state with
  | .wait left => (e.elapse left).complete c .timeout
  | _ => e

/-- REPLY_WINDOW_EXPIRY. -/
def execReplyWindowExpiry (g : Segment) (s : State) : Host.Outcome State Fault Refusal :=
  s.claim fun s => s.updateEngine g (·.expireWindow (s.control g).config)

/-- R67, R68: a start bit within the window begins the reply. The deadline stays where the window's expiry puts it: 10 bit
times for each character of the longest expected reply after it. -/
def Engine.startReply (e : Engine) (c : SegmentConfig) (elapsed : Nat) : Engine :=
  match e.state, e.exchange with
  | .wait window, some x =>
    if elapsed ≤ window then
      { e.elapse elapsed with
        state := .reply (window - elapsed + c.chars (frameChars (x.kind.replyPayload x.length))) (c.chars 1) [] }
    else e
  | _, _ => e

/-- R56, R67: the part listens on SxRX: the first start bit begins the reply, and a shorter pulse is ignored. -/
def Engine.listen (e : Engine) (c : SegmentConfig) (line : List Bool) : Engine :=
  match c.bitRate.firstStart line with
  | some elapsed => e.startReply c elapsed
  | none => e

/-- REPLY_START. -/
def execReplyStart (g : Segment) (line : List Bool) (s : State) : Host.Outcome State Fault Refusal :=
  s.claim fun s => s.updateEngine g (·.listen (s.control g).config line)

/-! ### The characters (R69 to R71) -/

/-- R70: the time within which the next character ends: a pause of 20 bit times, and the character. -/
def SegmentConfig.nextCharacter (c : SegmentConfig) : Nat := c.bits (Config.pauseBits + Config.charBits)

/-- R70: does the header announce more payload than the longest expected reply? The test is made once, on the header. -/
def announcesTooMuch (x : Exchange) (received : List Byte) : Bool :=
  match received with
  | [_, _, _, n] => decide (x.kind.replyPayload x.length < n.toNat)
  | _ => false

/-- R69 to R71: the engine after a good character, the time having passed. -/
def Engine.takeByte (e : Engine) (c : SegmentConfig) (x : Exchange) (deadline : Nat) (received : List Byte) : Engine :=
  if announcesTooMuch x received then e.complete c (.error .longReply)
  else if replyTotal received = some received.length then e.complete c (judge x received)
  else { e with state := .reply deadline c.nextCharacter received }

/-- R56, R69, R70: a character with this byte and stop bit has been received: its byte is taken when its stop bit is 1, and
the exchange ends with FRAME_ERROR when it is 0. A character that ends after the deadline, or after too long a pause, is not
received: the exchange has ended before it (log 5). -/
def Engine.receive (e : Engine) (c : SegmentConfig) (elapsed : Nat) (b : Byte) (stopBit : Bool) : Engine :=
  match e.state, e.exchange with
  | .reply deadline nextBy received, some x =>
    if elapsed ≤ deadline ∧ elapsed ≤ nextBy then
      if stopBit then (e.elapse elapsed).takeByte c x (deadline - elapsed) (received ++ [b])
      else (e.elapse elapsed).complete c (.error .frameError)
    else e
  | _, _ => e

/-- R56: the character on the line is received with its byte and its stop bit, each sampled at its middle; without a start bit
there is none. -/
def Engine.sampleCharacter (e : Engine) (c : SegmentConfig) (elapsed : Nat) (before : Bool) (line : List Bool) : Engine :=
  if c.bitRate.startBit before line then e.receive c elapsed (c.bitRate.byte line) (c.bitRate.stopBit line) else e

/-- CHARACTER_RECEIVED. -/
def execCharacterReceived (g : Segment) (elapsed : Nat) (before : Bool) (line : List Bool) (s : State) :
    Host.Outcome State Fault Refusal :=
  s.claim fun s => s.updateEngine g (·.sampleCharacter (s.control g).config elapsed before line)

/-- R70: more than 20 bit times have passed between two characters: the first CLK edge after them (log 19). -/
def SegmentConfig.longPause (c : SegmentConfig) : Nat := c.bits Config.pauseBits + 1

/-- R70: the pause ends an incomplete reply with FRAME_ERROR. -/
def Engine.expireGap (e : Engine) (c : SegmentConfig) : Engine :=
  match e.state with
  | .reply deadline _ (_ :: _) =>
    if c.longPause ≤ deadline then (e.elapse c.longPause).complete c (.error .frameError) else e
  | _ => e

/-- CHARACTER_GAP_EXPIRY. -/
def execCharacterGapExpiry (g : Segment) (s : State) : Host.Outcome State Fault Refusal :=
  s.claim fun s => s.updateEngine g (·.expireGap (s.control g).config)

/-- R68, R70: the deadline passes before the reply is complete: FRAME_ERROR. -/
def Engine.expireDeadline (e : Engine) (c : SegmentConfig) : Engine :=
  match e.state with
  | .reply deadline _ _ => (e.elapse deadline).complete c (.error .frameError)
  | _ => e

/-- REPLY_DEADLINE_EXPIRY. -/
def execReplyDeadlineExpiry (g : Segment) (s : State) : Host.Outcome State Fault Refusal :=
  s.claim fun s => s.updateEngine g (·.expireDeadline (s.control g).config)

end Sys2Proof.Machine
end

