-- ==== Sys2Proof/Machine/SegmentRequests.lean ====
section
/-! DEFINITION. SEGMENT_CONFIGURE, SEGMENT_COMMAND and SEGMENT_STATUS (sections 8.2, 8.3 and 8.7). -/

namespace Sys2Proof.Machine

/-- R160: SEGMENT_CONFIGURE, with its checks in order. -/
def Part.ownConfigure (s : Part) (f : RequestFrame) : Part × Answer :=
  match f.args with
  | [segment, rate, periodHigh, periodLow, window, settle, limit] =>
    match segmentOf segment with
    | none => (s, .badField 0)
    | some g =>
      if (s.control g).state ≠ .off then (s, .bare .wrongState)
      else
        match configArgs rate periodHigh periodLow window settle limit with
        | .error offset => (s, .badField offset)
        | .ok c => (s.updateControl g fun k => { k with config := c }, .bare .done)
  | _ => (s, .bare .badRequest)

/-- R141, R160: every station of an OFF segment has silence counter 0 when new settings are taken, so that no counter stands
above the limit in force: the request waits where it would be accepted and the Station Directory has yet to take its part of a
teardown (log 32). -/
def Part.configureWaits (s : Part) (f : RequestFrame) : Bool :=
  (s.ownConfigure f).2.status == .done &&
    (f.args.head?.bind segmentOf).any fun g => (s.control g).stationTeardowns != 0

/-- R160: take a SEGMENT_CONFIGURE that stands SUBMITTED in the port and does not wait. -/
def Part.takeConfigure (s : Part) (p : Port) : Part :=
  match (s.port p).buffer with
  | .submitted f => if s.configureWaits f then s else s.takeRequest p .segmentConfigure s.ownConfigure
  | .empty | .answered _ => s

/-! ### SEGMENT_COMMAND -/

/-- R189: the command bytes. -/
inductive SegmentCommand where
  | on
  | off
  | hold
  | release
deriving DecidableEq, Repr

/-- R189: the code of a segment command. -/
def SegmentCommand.code : SegmentCommand → Byte
  | .on => 0
  | .off => 1
  | .hold => 2
  | .release => 3

/-- R189: the command that a byte names. -/
def commandOf (b : Byte) : Option SegmentCommand :=
  match b with
  | 0#8 => some .on
  | 1#8 => some .off
  | 2#8 => some .hold
  | 3#8 => some .release
  | _ => none

/-- R161, R162: ON. -/
def Part.commandOn (s : Part) (g : Segment) : Part × Answer :=
  match (s.control g).state with
  | .off =>
    let s₁ := s.updateControl g fun c =>
      { c with powerOut := true, settleTimer := some c.config.settleLength, scanPosition := none }
    let s₂ := s₁.enterState g .powering
    (if (s.control g).faultIn then s₂.tearDown g .fault else s₂, .bare .done)
  | .powering | .scanning | .running => (s, .bare .segmentBusy)
  | .held | .fault => (s, .bare .wrongState)

/-- R161, R168, R171: OFF. -/
def Part.commandOff (s : Part) (g : Segment) : Part × Answer :=
  match (s.control g).state with
  | .off => (s, .bare .done)
  | .fault => (s.enterState g .off, .bare .done)
  | .powering | .scanning | .running | .held => (s.tearDown g .off, .bare .done)

/-- R98, R161, R166: HOLD: the cycle timer stops and its time left is discarded, and no MARK is owed. -/
def Part.commandHold (s : Part) (g : Segment) : Part × Answer :=
  match (s.control g).state with
  | .running =>
    ((s.enterState g .held).updateEngine g fun e => { e with cycleTimer := none, markOwed := false }, .bare .done)
  | .off | .powering | .scanning | .held | .fault => (s, .bare .wrongState)

/-- R98, R161, R166: RELEASE: RUNNING, and a MARK of cycle 0 called for at once. -/
def Part.commandRelease (s : Part) (g : Segment) : Part × Answer :=
  match (s.control g).state with
  | .held => ((s.enterState g .running).updateEngine g (·.callMark (s.control g).config), .bare .done)
  | .off | .powering | .scanning | .running | .fault => (s, .bare .wrongState)

/-- R161: does a frame stand for this row of the table? The row of its command byte, or any of the four rows when the byte
names no command, so that the frame can be refused (log 12). -/
def RequestFrame.commands (f : RequestFrame) (c : SegmentCommand) : Bool :=
  match f.args with
  | [_, command] => commandOf command == some c || commandOf command == none
  | _ => true

/-- R161: the checks of SEGMENT_COMMAND, then the command. -/
def Part.ownCommand (s : Part) (f : RequestFrame) (run : Segment → Part × Answer) : Part × Answer :=
  match f.args with
  | [segment, command] =>
    match segmentOf segment with
    | none => (s, .badField 0)
    | some g => if commandOf command = none then (s, .badField 1) else run g
  | _ => (s, .bare .badRequest)

/-- R161: take a SEGMENT_COMMAND that stands SUBMITTED in the port and stands for this row. -/
def Part.takeCommand (s : Part) (p : Port) (c : SegmentCommand) (run : Segment → Part × Answer) : Part :=
  match (s.port p).buffer with
  | .submitted f => if f.commands c then s.takeRequest p .segmentCommand fun f => s.ownCommand f run else s
  | .empty | .answered _ => s

/-! ### SEGMENT_STATUS -/

/-- R172: the number of PRESENT stations. -/
def SegmentUnit.presentCount (u : SegmentUnit) : Nat := u.stations.countP (·.state == .present)

/-- R159, R191: the five settings as results. -/
def SegmentConfig.results (c : SegmentConfig) : List Byte :=
  [c.bitRate.code] ++ be16 c.cyclePeriod ++ num8 c.replyWindow ++ num8 c.settleTime ++ num8 c.silenceLimit

/-- R172: the results of SEGMENT_STATUS. -/
def Part.segmentResults (s : Part) (g : Segment) : List Byte :=
  [segmentCode g, (s.control g).state.code] ++ (s.control g).config.results ++
  be16 (s.engine g).cycleNumber.toNat ++ num8 (s.seg g).presentCount ++ yesNo (s.control g).faultIn

/-- R172: SEGMENT_STATUS reports, and clears the caller's flag for the segment. -/
def Part.ownStatus (s : Part) (p : Port) (f : RequestFrame) : Part × Answer :=
  match f.args with
  | [segment] =>
    match segmentOf segment with
    | none => (s, .badField 0)
    | some g => (s.updatePort p (·.withFlag g false), ⟨.done, s.segmentResults g⟩)
  | _ => (s, .bare .badRequest)

/-! ### The commands -/

/-- SEGMENT_CONFIGURE (R160). -/
def execSegmentConfigure (p : Port) (s : State) : Host.Outcome State Fault Refusal :=
  s.claim (·.takeConfigure p)

/-- SEGMENT_COMMAND ON (R161, R162). -/
def execSegmentCommandOn (p : Port) (s : State) : Host.Outcome State Fault Refusal :=
  s.claim fun s => s.takeCommand p .on s.commandOn

/-- SEGMENT_COMMAND OFF (R161, R168, R171). -/
def execSegmentCommandOff (p : Port) (s : State) : Host.Outcome State Fault Refusal :=
  s.claim fun s => s.takeCommand p .off s.commandOff

/-- SEGMENT_COMMAND HOLD (R161, R166). -/
def execSegmentCommandHold (p : Port) (s : State) : Host.Outcome State Fault Refusal :=
  s.claim fun s => s.takeCommand p .hold s.commandHold

/-- SEGMENT_COMMAND RELEASE (R161, R166, R98). -/
def execSegmentCommandRelease (p : Port) (s : State) : Host.Outcome State Fault Refusal :=
  s.claim fun s => s.takeCommand p .release s.commandRelease

/-- SEGMENT_STATUS (R172). -/
def execSegmentStatus (p : Port) (s : State) : Host.Outcome State Fault Refusal :=
  s.claim fun s => s.takeRequest p .segmentStatus (s.ownStatus p)

end Sys2Proof.Machine
end

