-- ==== Sys2Proof/Machine/StationRequests.lean ====
section
/-! DEFINITION. STATION_QUERY, STATION_BAR and STATION_UNBAR (sections 7.4 and 7.5). -/

namespace Sys2Proof.Machine

/-- Run a station request on the station it names, once R151's checks have passed. -/
def Part.onStation (s : Part) (f : RequestFrame) (run : Segment → Nat → Station → Part × Answer) : Part × Answer :=
  match stationArgs f.args with
  | .error a => (s, a)
  | .ok (g, n) =>
    match s.station g n with
    | none => (s, .badField 1)
    | some e => run g n e

/-- R154: the results of STATION_QUERY. -/
def Part.stationResults (s : Part) (g : Segment) (n : Nat) (e : Station) : List Byte :=
  [segmentCode g] ++ num8 n ++ [e.state.code] ++ optional 5 (e.identity.map identityBytes) ++ num8 e.silence ++
  be16 (s.refCount g n)

/-- R154: STATION_QUERY changes nothing. -/
def Part.ownQuery (s : Part) (f : RequestFrame) : Part × Answer :=
  s.onStation f fun g n e => (s, ⟨.done, s.stationResults g n e⟩)

/-- R151: the records of a SILENT or ABSENT station that is barred. -/
def barVerdict (_n : Nat) (r : Record) : Verdict :=
  match r.state with
  | .pending | .stale => ({ r with condition := .stationBarred }, [])
  | .live | .halted | .retiring | .retired => (r, [])

/-- R151: the effect of STATION_BAR by the state of the entry. -/
def Part.barStation (s : Part) (g : Segment) (n : Nat) (e : Station) : Part :=
  let s₁ := s.withStation g n ⟨.barred, e.identity, 0⟩
  match e.state with
  | .present => (s₁.departRecords g n .stationBarred).setFlags g
  | .silent | .absent => (s₁.forRecords (fun _ r => r.onStation g n) barVerdict).setFlags g
  | .barred => s

/-- R151: STATION_BAR. -/
def Part.ownBar (s : Part) (f : RequestFrame) : Part × Answer :=
  s.onStation f fun g n e => (s.barStation g n e, .bare .done)

/-- R153: the records of a station that is unbarred. -/
def unbarVerdict (_n : Nat) (r : Record) : Verdict :=
  match r.state with
  | .pending | .stale =>
    (if r.condition = .stationBarred then { r with condition := .stationAbsent } else r, [])
  | .live | .halted | .retiring | .retired => (r, [])

/-- R153: an accepted STATION_UNBAR: ABSENT, counter 0, the identity kept while records are routed to the station. -/
def Part.unbarStation (s : Part) (g : Segment) (n : Nat) (e : Station) : Part :=
  let kept := if s.refCount g n = 0 then none else e.identity
  ((s.withStation g n ⟨.absent, kept, 0⟩).forRecords (fun _ r => r.onStation g n) unbarVerdict).setFlags g

/-- R153: STATION_UNBAR. -/
def Part.ownUnbar (s : Part) (f : RequestFrame) : Part × Answer :=
  s.onStation f fun g n e =>
    if e.state = .barred then (s.unbarStation g n e, .bare .done) else (s, .bare .wrongState)

/-- STATION_QUERY (R154). -/
def execStationQuery (p : Port) (s : State) : Host.Outcome State Fault Refusal :=
  s.claim fun s => s.takeRequest p .stationQuery s.ownQuery

/-- STATION_BAR (R151). -/
def execStationBar (p : Port) (s : State) : Host.Outcome State Fault Refusal :=
  s.claim fun s => s.takeRequest p .stationBar s.ownBar

/-- STATION_UNBAR (R153). -/
def execStationUnbar (p : Port) (s : State) : Host.Outcome State Fault Refusal :=
  s.claim fun s => s.takeRequest p .stationUnbar s.ownUnbar

end Sys2Proof.Machine
end

