-- ==== Sys2Proof/Machine/Dispatch.lean ====
section
/-! DEFINITION. The dispatch: one direct call of its meaning for each command. -/

namespace Sys2Proof.Machine

def exec (i : Instr) (s : State) : Host.Outcome State Fault Refusal :=
  match i with
  | .lookup p => Sys2Proof.Machine.execLookup p s
  | .scanFrom p => Sys2Proof.Machine.execScanFrom p s
  | .read p => Sys2Proof.Machine.execRead p s
  | .insert p => Sys2Proof.Machine.execInsert p s
  | .amend p => Sys2Proof.Machine.execAmend p s
  | .write p => Sys2Proof.Machine.execWrite p s
  | .resume p => Sys2Proof.Machine.execResume p s
  | .restart p => Sys2Proof.Machine.execRestart p s
  | .retire p => Sys2Proof.Machine.execRetire p s
  | .purge p => Sys2Proof.Machine.execPurge p s
  | .stationQuery p => Sys2Proof.Machine.execStationQuery p s
  | .stationBar p => Sys2Proof.Machine.execStationBar p s
  | .stationUnbar p => Sys2Proof.Machine.execStationUnbar p s
  | .segmentConfigure p => Sys2Proof.Machine.execSegmentConfigure p s
  | .segmentCommandOn p => Sys2Proof.Machine.execSegmentCommandOn p s
  | .segmentCommandOff p => Sys2Proof.Machine.execSegmentCommandOff p s
  | .segmentCommandHold p => Sys2Proof.Machine.execSegmentCommandHold p s
  | .segmentCommandRelease p => Sys2Proof.Machine.execSegmentCommandRelease p s
  | .segmentStatus p => Sys2Proof.Machine.execSegmentStatus p s
  | .takeAttention p => Sys2Proof.Machine.execTakeAttention p s
  | .portConfigure p => Sys2Proof.Machine.execPortConfigure p s
  | .submit bs => Sys2Proof.Machine.execSubmit bs s
  | .collect k => Sys2Proof.Machine.execCollect k s
  | .poll k => Sys2Proof.Machine.execPoll k s
  | .unknownOperation o k => Sys2Proof.Machine.execUnknownOperation o k s
  | .writeTransfer d bs w => Sys2Proof.Machine.execWriteTransfer d bs w s
  | .readTransfer d k => Sys2Proof.Machine.execReadTransfer d k s
  | .cycleTimerExpiry g => Sys2Proof.Machine.execCycleTimerExpiry g s
  | .cycleStep g => Sys2Proof.Machine.execCycleStep g s
  | .markEnd g => Sys2Proof.Machine.execMarkEnd g s
  | .settlingEnd g => Sys2Proof.Machine.execSettlingEnd g s
  | .exchangeStart g t => Sys2Proof.Machine.execExchangeStart g t s
  | .probeStart g t => Sys2Proof.Machine.execProbeStart g t s
  | .scanProbeStart g => Sys2Proof.Machine.execScanProbeStart g s
  | .requestEnd g => Sys2Proof.Machine.execRequestEnd g s
  | .replyWindowExpiry g => Sys2Proof.Machine.execReplyWindowExpiry g s
  | .replyStart g l => Sys2Proof.Machine.execReplyStart g l s
  | .characterReceived g t b l => Sys2Proof.Machine.execCharacterReceived g t b l s
  | .characterGapExpiry g => Sys2Proof.Machine.execCharacterGapExpiry g s
  | .replyDeadlineExpiry g => Sys2Proof.Machine.execReplyDeadlineExpiry g s
  | .outcomeTaken g => Sys2Proof.Machine.execOutcomeTaken g s
  | .stationOutcome g => Sys2Proof.Machine.execStationOutcome g s
  | .probeOutcome g => Sys2Proof.Machine.execProbeOutcome g s
  | .settleTimerExpiry g => Sys2Proof.Machine.execSettleTimerExpiry g s
  | .supplyFault g l => Sys2Proof.Machine.execSupplyFault g l s
  | .stationTeardown g => Sys2Proof.Machine.execStationTeardown g s
  | .recordTeardown g => Sys2Proof.Machine.execRecordTeardown g s
  | .reset => Sys2Proof.Machine.execReset s
  | .powerOn => Sys2Proof.Machine.execPowerOn s
  | .resetRelease l => Sys2Proof.Machine.execResetRelease l s

end Sys2Proof.Machine
end

