-- ==== Sys2Proof/Safety.lean ====
section
/-! DEFINITION. What a safe run keeps: the facts about the whole part that every step preserves, and the relations in
which statements say what a command leaves alone. -/

namespace Sys2Proof.Machine

/-! ### The segments -/

/-- R157, R158: the states in which the engine may hold anything: it sends frames, or an exchange runs to its end. -/
def SegmentState.onLine : SegmentState → Bool
  | .scanning | .running | .held => true
  | .off | .powering | .fault => false

/-- R75, R99, R157: an engine that is at rest: READY, line released, nothing queued, nothing in flight, no timer, no cycle
step handed over (log 14). -/
structure Engine.AtRest (e : Engine) : Prop where
  ready : e.state = .ready
  line : e.frame = []
  queue : e.active = [] ∧ e.held = []
  exchange : e.exchange = none
  timer : e.cycleTimer = none
  steps : e.stepsDue = 0

/-- R157, R162, R163, R164, R167, R76, R77: how a segment's pins, timers and engine go with its state. -/
structure SegmentUnit.Coherent (u : SegmentUnit) : Prop where
  /-- R157: SxPWR is asserted exactly in POWERING, SCANNING, RUNNING and HELD. -/
  power : u.control.powerOut = u.control.state.powered
  /-- R162, R167: no powered segment has SxFLT asserted. -/
  supply : u.control.state.powered = true → u.control.faultIn = false
  /-- R163: the settle timer runs exactly while the segment is POWERING. -/
  settle : u.control.settleTimer.isSome = true ↔ u.control.state = .powering
  /-- R164, R165: there is a scan position exactly in SCANNING. -/
  scan : u.control.scanPosition.isSome = true ↔ u.control.state = .scanning
  /-- R54, R96: SxDE is asserted exactly while a frame is on the line. -/
  driver : u.engine.driverEnable = true ↔ u.engine.frame ≠ []
  /-- R76: the cycle timer is stopped in every state but RUNNING. -/
  timer : u.engine.cycleTimer.isSome = true → u.control.state = .running
  /-- R77, R98: a MARK is owed only in RUNNING. -/
  owed : u.engine.markOwed = true → u.control.state = .running
  /-- R99, R157: outside SCANNING, RUNNING and HELD the engine is at rest. -/
  rest : u.control.state.onLine = false → u.engine.AtRest

/-- Both segments are coherent. -/
def Part.SegmentsCoherent (s : Part) : Prop := ∀ g, (s.seg g).Coherent

/-! ### The records -/

/-- The ranges of the table of section 1.1, and R3, R6, R7, R9, R11, R14, R34, R110, R121, R178: what holds of every record on
its own. -/
structure Record.Sound (r : Record) : Prop where
  /-- R2, R20: a tag is 1 to 65535; tag 0 is never bound. -/
  tag : 1 ≤ r.tag ∧ r.tag ≤ 65535
  /-- R141: stations are 1 to 30. -/
  station : 1 ≤ r.station ∧ r.station ≤ 30
  /-- Section 1.1: an object is 0 to 255. -/
  object : r.object ≤ 255
  /-- Section 1.1: a value is 1 to 32 bytes long. -/
  length : 1 ≤ r.length ∧ r.length ≤ 32
  /-- R3: a period is 0 to 255; an INPUT record's is not 0, and a GUARDED record's is 0. -/
  period : r.period ≤ 255
  periodKind : (r.kind = .input → r.period ≠ 0) ∧ (r.kind = .guarded → r.period = 0)
  /-- R5: the age saturates at 255. -/
  age : r.age ≤ 255
  /-- R7: the budget is 1 to 7. -/
  budget : 1 ≤ r.retryBudget ∧ r.retryBudget ≤ 7
  /-- R7: the error count does not pass the budget. -/
  errors : r.errorCount ≤ r.retryBudget
  /-- R110: and is below it while the record is served. -/
  belowBudget : r.state.served = true → r.errorCount < r.retryBudget
  /-- R3: there is a countdown exactly when the period is not 0, and it stays below the period. -/
  countdown : r.countdown.isSome = true ↔ r.period ≠ 0
  countdownBelow : ∀ k, r.countdown = some k → k < r.period
  /-- R3: the phase is below the period, and 0 when the period is 0. -/
  phase : r.phase < r.period ∨ (r.period = 0 ∧ r.phase = 0)
  /-- R6: a freshness limit is held exactly where freshness applies. -/
  freshness : r.freshnessLimit.isSome = freshnessApplies r.kind r.period
  /-- R6: it is 1 to 255. -/
  freshnessRange : ∀ limit, r.freshnessLimit = some limit → 1 ≤ limit ∧ limit ≤ 255
  /-- R121: a guard phase other than NONE belongs to a GUARDED record. -/
  guardKind : r.guardPhase ≠ .closed → r.kind = .guarded
  /-- R121: an active record with an open write holds a token and a staged copy. -/
  openWrite : r.guardPhase ≠ .closed → r.state.active = true → r.guardToken.isSome = true ∧ r.staged.isSome = true
  /-- R9: a token counter belongs to GUARDED records; it and the guard token are 1 to 255. -/
  counter : r.tokenCounter.isSome = true ↔ r.kind = .guarded
  counterRange : ∀ t, r.tokenCounter = some t → 1 ≤ t ∧ t ≤ 255
  tokenRange : ∀ t, r.guardToken = some t → 1 ≤ t ∧ t ≤ 255
  /-- R9, R14: a guard token and a staged copy belong to GUARDED records. -/
  guardedOnly : r.kind ≠ .guarded → r.guardToken = none ∧ r.staged = none
  /-- R14: an output-class record has its desired value. -/
  value : r.kind.outputClass = true → r.value.isSome = true
  /-- R14, R15: the value and the staged copy have the record's length. -/
  valueLength : ∀ bytes, r.value = some bytes → bytes.length = r.length
  stagedLength : ∀ bytes, r.staged = some bytes → bytes.length = r.length
  /-- R11, R52: silent retire belongs to RETIRING records. -/
  silent : r.silentRetire = true → r.state = .retiring
  /-- R112: only a STORE of an OUTPUT record leaves an ACCEPT missed. -/
  missed : r.missed = true → r.kind = .output
  /-- R34, R178: a RETIRED record holds RETIRED in its reason set. -/
  notice : r.state = .retired → r.reasons.retired = true

/-- Every record is sound, and what is on its way into a record fits it. -/
structure Part.RecordsSound (s : Part) : Prop where
  records : ∀ n r, s.record n = some r → r.Sound
  /-- R187: the tag of a frame is two bytes. -/
  frames : ∀ p f, (s.port p).buffer = .submitted f → f.tag ≤ 65535
  /-- R61, R62: an exchange is made for its record's length. -/
  flight : ∀ g x n r, (s.engine g).exchange = some x → x.slot = some n → s.record n = some r → x.length = r.length
  /-- R71: DATA to a FETCH has its record's length. -/
  replies : ∀ g o n r bytes, o ∈ (s.engine g).toTable → o.exchange.slot = some n → s.record n = some r →
    o.exchange.kind = .fetch → o.result = .data bytes → bytes.length = r.length

/-- R20, R38: no two records have the same tag, and no two output-class records the same route. -/
def Part.KeysUnique (s : Part) : Prop :=
  ∀ m n q r, s.record m = some q → s.record n = some r → m ≠ n →
    q.tag ≠ r.tag ∧
    ((q.kind.outputClass = true ∧ r.kind.outputClass = true) →
      ¬(q.segment = r.segment ∧ q.station = r.station ∧ q.object = r.object))

/-- R174: a slot stands on a list at most once, only on its owner's, and with a reason pending. -/
def Part.ListsSound (s : Part) : Prop :=
  ∀ p, (s.port p).attention.Nodup ∧
    ∀ n, n ∈ (s.port p).attention → ∃ r, s.record n = some r ∧ r.owner = p ∧ r.reasons ≠ .empty

/-! ### The Due Queue -/

/-- R61, R96: the states of the engine in which an exchange is in flight; a MARK passes through REQUEST too. -/
def EngineState.onWire : EngineState → Bool
  | .request _ | .wait _ | .reply _ _ _ => true
  | .ready | .settle _ => false

/-- R28, R50, R84: may the record stand in a Due Queue? -/
def Record.mayQueue (r : Record) : Prop :=
  r.state.served = true ∨ (r.state = .retiring ∧ r.kind = .guarded ∧ r.guardPhase = .cancel)

/-- R13, R26, R73, R79, R84: the Due Queue of a segment and its record in flight. -/
structure Part.QueueSound (s : Part) (g : Segment) : Prop where
  /-- R84: no slot stands in the queue twice. -/
  distinct : ((s.engine g).active.map (·.slot) ++ (s.engine g).held).Nodup
  /-- R84: every entry is a record of the segment that may stand there. -/
  entries : ∀ n, (s.engine g).queued n = true → ∃ r, s.record n = some r ∧ r.segment = g ∧ r.mayQueue
  /-- R50, R86: the owed CANCELs, which are the entries of RETIRING records, lead the held part. -/
  cancelsFirst : (s.engine g).held.Pairwise fun m n => s.retiringSlot n = true → s.retiringSlot m = true
  /-- R13, R33: a record in flight is a record of the segment, not RETIRED, and not queued. -/
  flight : ∀ n, ((s.engine g).inFlightKind n).isSome = true →
    (s.engine g).queued n = false ∧ ∃ r, s.record n = some r ∧ r.segment = g ∧ r.state ≠ .retired
  /-- R26, R79: while an exchange serves a record, every earlier outcome, step and teardown has been taken. -/
  single : ∀ x, (s.engine g).exchange = some x → x.slot.isSome = true →
    (s.engine g).toTable = [] ∧ (s.engine g).stepsDue = 0 ∧ (s.control g).recordTeardowns = []
  /-- R73: at most one outcome waits for the Table Controller. -/
  waiting : (s.engine g).toTable.length ≤ 1
  /-- R96: an exchange is in flight only in REQUEST, WAIT and REPLY. -/
  onWire : (s.engine g).exchange.isSome = true → (s.engine g).state.onWire = true

/-- Both queues are sound. -/
def Part.QueuesSound (s : Part) : Prop := ∀ g, s.QueueSound g

/-! ### The terms in which statements speak -/

/-- The part with another buffer in a port. -/
def Part.withBuffer (s : Part) (p : Port) (b : Buffer) : Part := s.updatePort p fun u => { u with buffer := b }

/-- A request of this code stands SUBMITTED in the port, and RESETn is high. -/
def Part.Standing (s : Part) (p : Port) (c : RequestCode) (f : RequestFrame) : Prop :=
  s.resetLow = false ∧ (s.port p).buffer = .submitted f ∧ f.code = c.code

/-- The part with this answer to the request in the response buffer of the port (R186, R190). -/
def Part.answer (s : Part) (p : Port) (f : RequestFrame) (status : Status) (results : List Byte) : Part :=
  s.withBuffer p (.answered (responseFrame status f.sequence f.code results))

/-- The machine with another part and the same queue. -/
def State.with (s : State) (t : Part) : State := { s with part := t }

/-- R20: the tag is bound to the record r in slot n. -/
def Part.Binds (s : Part) (tag n : Nat) (r : Record) : Prop := tag ≠ 0 ∧ s.record n = some r ∧ r.tag = tag

/-- R20: no record has the tag. -/
def Part.Unbound (s : Part) (tag : Nat) : Prop := ∀ n r, s.record n = some r → r.tag ≠ tag

/-- R102, R168: the record's station counts as PRESENT for this outcome: as it stands when the outcome is taken or, where the
Station Directory's part of a teardown came first, as it stood then (log 15). -/
def Part.PresentFor (s : Part) (o : ExchangeOutcome) (r : Record) : Prop :=
  o.standing = some true ∨ (o.standing = none ∧ s.stationState r.segment r.station = .present)

/-- R2: the port may change the record: it owns it, or the record is shared. -/
def Record.Allows (r : Record) (p : Port) : Prop := r.owner = p ∨ r.shared = true

/-- R26: every record becomes what f makes of it, and no slot is taken or freed. -/
def Part.RecordsBecome (s t : Part) (f : Nat → Record → Record) : Prop := ∀ n, t.record n = (s.record n).map (f n)

/-- R175: each port's list gains at its tail, in ascending order, the slots of its own records on which a reason is raised
and that were not on it; no reason is raised under silent retire. -/
def Part.ListsGain (s t : Part) (raised : Nat → Record → Prop) : Prop :=
  ∀ p, ∃ new : List Nat, (t.port p).attention = (s.port p).attention ++ new ∧ new.Pairwise (· < ·) ∧
    ∀ n, n ∈ new ↔ n ∉ (s.port p).attention ∧
      ∃ r, s.record n = some r ∧ r.owner = p ∧ r.silentRetire = false ∧ raised n r

/-- Nothing on the buses, in reset or among the free tokens differs. -/
def Part.SameBus (s t : Part) : Prop :=
  t.resetLow = s.resetLow ∧ t.port1Address = s.port1Address ∧ t.port0Phase = s.port0Phase ∧ t.port0Out = s.port0Out ∧
    t.port1Acks = s.port1Acks ∧ t.port1Out = s.port1Out ∧ t.freeDraws = s.freeDraws

/-- R150, R181: both ports have the flags of these segments set and the others as they were; buffers and enables are the
same. -/
def Part.PortsFlagged (s t : Part) (changed : Segment → Prop) : Prop :=
  ∀ p, (t.port p).buffer = (s.port p).buffer ∧ (t.port p).listEnable = (s.port p).listEnable ∧
    (t.port p).segmentEnable = (s.port p).segmentEnable ∧
    ∀ g, ((t.port p).flag g = true ↔ (s.port p).flag g = true ∨ changed g)

/-- The other segment is the same. -/
def Part.SameOther (s t : Part) (g : Segment) : Prop := ∀ h, h ≠ g → t.seg h = s.seg h

/-- R37: the fields of an INSERT that pass every check, with the kind and the segment they name. -/
structure InsertArgs.Fits (a : InsertArgs) (kind : RecordKind) (g : Segment) : Prop where
  kindNamed : kindOf a.kind = some kind
  segmentNamed : segmentOf a.segment = some g
  station : 1 ≤ a.station.toNat ∧ a.station.toNat ≤ 30
  length : 1 ≤ a.length.toNat ∧ a.length.toNat ≤ 32
  period : (kind = .input → a.period ≠ 0) ∧ (kind = .guarded → a.period = 0)
  phase : a.phase.toNat < a.period.toNat ∨ (a.period = 0 ∧ a.phase = 0)
  limit : kind = .input ∨ (kind = .output ∧ a.period ≠ 0) → a.freshnessLimit ≠ 0
  budget : a.retryBudget.toNat ≤ 7
  notice : a.noticeMode.toNat ≤ 1
  shared : a.shared.toNat ≤ 1
  value : a.value.length = if kind = .input then 0 else a.length.toNat

/-- R38: the two routes are the same. -/
def Record.SameRoute (r : Record) (g : Segment) (station object : Nat) : Prop :=
  r.segment = g ∧ r.station = station ∧ r.object = object

/-! ### The directories -/

/-- R141, R143, R144, R160: the silence counters and the limit in force. -/
structure Part.CountersSound (s : Part) : Prop where
  /-- R159: the limit is 1 to 15. -/
  limit : ∀ g, 1 ≤ (s.control g).config.silenceLimit ∧ (s.control g).config.silenceLimit ≤ 15
  /-- R141: no counter stands above the limit in force. -/
  bound : ∀ g n e, s.station g n = some e → e.silence ≤ (s.control g).config.silenceLimit
  /-- R143, R144: a PRESENT station's counter is below it. -/
  present : ∀ g n e, s.station g n = some e → e.state = .present → e.silence < (s.control g).config.silenceLimit
  /-- R141, R144: a SILENT station's counter is at it. -/
  silent : ∀ g n e, s.station g n = some e → e.state = .silent → e.silence = (s.control g).config.silenceLimit
  /-- R141, R169: where the segment has no traffic and no Station Directory's part of a teardown waits, no outcome waits
  there, every station is ABSENT or BARRED, and every counter is 0. -/
  quiet : ∀ g, (s.control g).state.onLine = false → (s.control g).stationTeardowns = 0 →
    (s.engine g).toStations = [] ∧
      ∀ n e, s.station g n = some e → (e.state = .absent ∨ e.state = .barred) ∧ e.silence = 0

/-- R1, R94, R141, R142, R144, R169: the sizes of the tables, the range of the probe cursor, and what a station holds by its
state. -/
structure Part.DirectoriesSound (s : Part) : Prop where
  slots : s.slots.length = 256
  stations : ∀ g, (s.seg g).stations.length = 30
  cursor : ∀ g, 1 ≤ (s.engine g).probeCursor ∧ (s.engine g).probeCursor ≤ 30
  known : ∀ g n e, s.station g n = some e → e.state = .present ∨ e.state = .silent → e.identity.isSome = true
  unheard : ∀ g n e, s.station g n = some e → e.state = .absent ∨ e.state = .barred → e.silence = 0

end Sys2Proof.Machine
end

