-- ==== Sys2Proof/Certificates/Slice0/Obligations.lean ====
section
/-! DEFINITION. The statements for the provers. Every request statement starts from a request that stands SUBMITTED in its
port with RESETn high (`Part.Standing`), and every event statement from RESETn high. -/

open Sys2Proof Sys2Proof.Machine

/-! ### Steps, reset -/

/-- The command at the front of the queue is taken, and runs on the queue's rest. On an empty queue the part idles: the
model's choice (log 1). -/
def Obligations.StepTakesFrontOfQueue : Prop :=
  (∀ (c : Instr) (s : State), step { s with pending := c :: s.pending } = exec c s) ∧
  (∀ s : State, s.pending = [] → step s = .next s)

/-- No command stops the part, and none touches the queue: the outcome is always a next state. That a reset leaves the
queue as it is, is the model's choice (log 26). -/
def Obligations.EveryCommandAnswers : Prop :=
  ∀ (c : Instr) (s : State), ∃ t, exec c s = .next t ∧ t.pending = s.pending

/-- What the spec gives the part after reset. That the queue of commands, which is no state of the part, is empty after it is
the model's choice (logs 1, 10). -/
def Obligations.ResetState : Prop :=
  let s := State.reset.part
  State.reset.pending = [] ∧ s.slots = List.replicate 256 none ∧
  (∀ p, (s.port p).buffer = .empty ∧ (s.port p).attention = [] ∧ (s.port p).flagA = false ∧ (s.port p).flagB = false ∧
    (s.port p).listEnable = false ∧ (s.port p).segmentEnable = false ∧ (s.port p).interrupt = false) ∧
  ∀ g, (s.engine g).active = [] ∧ (s.engine g).held = [] ∧ (s.engine g).exchange = none ∧
    (s.engine g).state = .ready ∧ (s.engine g).cycleTimer = none ∧ (s.engine g).cycleNumber = 0 ∧
    (s.engine g).cycleClosed = false ∧ (s.engine g).probeTaken = false ∧ (s.engine g).probeCursor = 1 ∧
    (s.engine g).markOwed = false ∧ (s.engine g).frame = [] ∧
    (s.seg g).stations = List.replicate 30 ⟨.absent, none, 0⟩ ∧
    (s.control g).state = .off ∧ (s.control g).config = ⟨.mbit1, 20, 48, 20, 4⟩ ∧
    (s.control g).settleTimer = none ∧ (s.control g).scanPosition = none ∧ (s.control g).powerOut = false

/-- RESET and POWER_ON put every block in its reset state with RESETn low, whatever was in hand; the levels of the inputs SxFLT
stay (the model's choice, log 8), and the count of free tokens is the model's own (log 30). At the rise of RESETn, ADR is
sampled and gives the Port 1 address; with RESETn high already a rise does nothing (log 3). -/
def Obligations.ResetClearsPart : Prop :=
  (∀ (adr : Bool) (s : State),
    (s.part.resetLow = true → exec (.resetRelease adr) s =
      .next (s.with { s.part with resetLow := false, port1Address := if adr then 0x4F#7 else 0x4E#7 })) ∧
    (s.part.resetLow = false → exec (.resetRelease adr) s = .next s)) ∧
  ∀ s : State, ∃ t, exec .reset s = .next (s.with t) ∧ exec .powerOn s = .next (s.with t) ∧
    t.resetLow = true ∧ t.port0Phase = .idle ∧ t.slots = List.replicate 256 none ∧ t.freeDraws = s.part.freeDraws ∧
    (∀ p, t.port p = ⟨.empty, [], false, false, false, false⟩) ∧
    ∀ g, t.engine g = State.reset.part.engine g ∧ (t.seg g).stations = List.replicate 30 ⟨.absent, none, 0⟩ ∧
      t.control g = { State.reset.part.control g with faultIn := (s.part.control g).faultIn }

/-- While RESETn is low no block takes a claim: only RESETn, power and the levels of SxFLT can change. That an input keeps
following its pin in reset is the model's choice (log 8). -/
def Obligations.NothingTakenInReset : Prop :=
  ∀ (c : Instr) (s : State), s.part.resetLow = true → c ≠ .reset → c ≠ .powerOn → (∀ adr, c ≠ .resetRelease adr) →
    (∀ g level, c ≠ .supplyFault g level) → exec c s = .next s

/-! ### Requests that read the table -/

/-- LOOKUP reports the record whole and changes nothing but the port's buffer. The forms of the items that R191 does not name
(the sequence bit) are the model's reading (log 28). -/
def Obligations.LookupAnswers : Prop :=
  ∀ (p : Port) (s : State) (f : RequestFrame), s.part.Standing p .lookup f →
    (f.tag = 0 → exec (.lookup p) s = .next (s.with (s.part.answer p f .badTag []))) ∧
    (f.tag ≠ 0 → s.part.Unbound f.tag → exec (.lookup p) s = .next (s.with (s.part.answer p f .notFound []))) ∧
    ∀ n r, s.part.KeysUnique → s.part.Binds f.tag n r →
      let out := r.kind.outputClass
      exec (.lookup p) s = .next (s.with (s.part.answer p f .done (
        [BitVec.ofNat 8 n, portCode r.owner] ++ yesNo r.shared ++
        [r.kind.code, segmentCode r.segment, BitVec.ofNat 8 r.station, BitVec.ofNat 8 r.object,
          BitVec.ofNat 8 r.length, BitVec.ofNat 8 r.period, BitVec.ofNat 8 r.phase] ++
        optional 1 (r.countdown.map num8) ++ [r.state.code, r.condition.code, BitVec.ofNat 8 r.age] ++
        optional 1 (r.freshnessLimit.map num8) ++ [BitVec.ofNat 8 r.retryBudget, BitVec.ofNat 8 r.errorCount] ++
        optional 1 (if out then some (yesNo r.sequenceBit) else none) ++
        optional 1 (if out then some (yesNo r.dirty) else none) ++
        optional 1 (if out then some (yesNo r.rewritten) else none) ++
        [r.noticeMode.code] ++ optional 5 (r.expected.map identityBytes) ++ [r.guardPhase.code] ++
        optional 1 (r.guardToken.map num8) ++ optional 1 (r.tokenCounter.map num8) ++ yesNo r.silentRetire ++
        [r.reasons.code] ++ yesNo ((s.part.engine r.segment).queued n) ++
        yesNo ((s.part.engine r.segment).carried n) ++ yesNo (s.part.inFlight n r))))

/-- SCAN_FROM answers with the first bound tag at or above the tag named, and changes nothing but the port's buffer. -/
def Obligations.ScanFromAnswers : Prop :=
  ∀ (p : Port) (s : State) (f : RequestFrame), s.part.Standing p .scanFrom f →
    ((∀ n r, s.part.record n = some r → r.tag < f.tag) →
      exec (.scanFrom p) s = .next (s.with (s.part.answer p f .notFound []))) ∧
    ∀ n r, s.part.KeysUnique → s.part.record n = some r → f.tag ≤ r.tag →
      (∀ m q, s.part.record m = some q → f.tag ≤ q.tag → r.tag ≤ q.tag) →
      exec (.scanFrom p) s = .next (s.with (s.part.answer p f .done
        [BitVec.ofNat 8 (r.tag / 256), BitVec.ofNat 8 r.tag, BitVec.ofNat 8 n, portCode r.owner, r.kind.code,
          r.state.code]))

/-- READ reports the record's standing and the selected area: a presence byte, then the bytes that are present. -/
def Obligations.ReadAnswers : Prop :=
  ∀ (p : Port) (s : State) (f : RequestFrame), s.part.Standing p .read f →
    (f.tag = 0 → exec (.read p) s = .next (s.with (s.part.answer p f .badTag []))) ∧
    (f.tag ≠ 0 → s.part.Unbound f.tag → exec (.read p) s = .next (s.with (s.part.answer p f .notFound []))) ∧
    ∀ n r selector, s.part.KeysUnique → s.part.Binds f.tag n r → f.args = [selector] →
      (selector ≠ 0 ∧ selector ≠ 1 → exec (.read p) s = .next (s.with (s.part.answer p f .badField [0]))) ∧
      ∀ area, (selector = 0 ∧ area = r.value) ∨ (selector = 1 ∧ area = r.staged) →
        exec (.read p) s = .next (s.with (s.part.answer p f .done (
          [r.state.code, r.condition.code, BitVec.ofNat 8 r.age] ++
          (if r.kind.outputClass then [1, if r.dirty then 1 else 0] else [0, 0]) ++
          (match area with
            | some bytes => 1#8 :: bytes
            | none => [0]))))

/-! ### INSERT -/

/-- An accepted INSERT creates the record, with its starting values, in the lowest FREE slot; nothing else changes. The field
`missed` is the model's own (log 31); that the station is read as the directory stands, also where a teardown's part waits, is
log 39. -/
def Obligations.InsertAccepted : Prop :=
  ∀ (p : Port) (s : State) (f : RequestFrame) (a : InsertArgs) (kind : RecordKind) (g : Segment) (n : Nat),
    s.part.Standing p .insert f → f.tag ≠ 0 → s.part.Unbound f.tag → insertArgs f.args = some a → a.Fits kind g →
    (kind.outputClass = true → ∀ m q, s.part.record m = some q → q.kind.outputClass = true →
      ¬q.SameRoute g a.station.toNat a.object.toNat) →
    n < s.part.slots.length → s.part.record n = none → (∀ m, m < n → s.part.record m ≠ none) →
    exec (.insert p) s = .next (s.with ((s.part.withRecord n {
      tag := f.tag
      owner := p
      shared := a.shared == 1
      kind := kind
      segment := g
      station := a.station.toNat
      object := a.object.toNat
      length := a.length.toNat
      period := a.period.toNat
      phase := a.phase.toNat
      countdown := if a.period = 0 then none else some a.phase.toNat
      state := .pending
      condition :=
        match s.part.stationState g a.station.toNat with
        | .present => .noneYet
        | .absent => .stationAbsent
        | .silent => .stationSilent
        | .barred => .stationBarred
      age := 0
      freshnessLimit :=
        if kind = .input ∨ (kind = .output ∧ a.period ≠ 0) then some a.freshnessLimit.toNat else none
      retryBudget := if a.retryBudget = 0 then 3 else a.retryBudget.toNat
      errorCount := 0
      sequenceBit := false
      dirty := decide (kind ≠ .input)
      rewritten := false
      missed := false
      noticeMode := if a.noticeMode = 0 then .state else .stateValue
      expected := a.expected
      value := if kind = .input then none else some a.value
      staged := none
      guardPhase := .closed
      guardToken := none
      tokenCounter := if kind = .guarded then some 255 else none
      silentRetire := false
      reasons := ⟨false, false, false, false, false, false, false, false⟩ }).answer p f .done [BitVec.ofNat 8 n]))

/-- INSERT is refused, in this order, for tag 0, a bound tag, a field, a route that is held and a full table, and then
changes nothing. -/
def Obligations.InsertRefused : Prop :=
  ∀ (p : Port) (s : State) (f : RequestFrame), s.part.Standing p .insert f →
    (f.tag = 0 → exec (.insert p) s = .next (s.with (s.part.answer p f .badTag []))) ∧
    (∀ n r, s.part.Binds f.tag n r → exec (.insert p) s = .next (s.with (s.part.answer p f .tagInUse []))) ∧
    ∀ a kind g, f.tag ≠ 0 → s.part.Unbound f.tag → insertArgs f.args = some a → a.Fits kind g →
      ((∃ m q, s.part.record m = some q ∧ q.kind.outputClass = true ∧ kind.outputClass = true ∧
          q.SameRoute g a.station.toNat a.object.toNat) →
        exec (.insert p) s = .next (s.with (s.part.answer p f .routeTaken []))) ∧
      ((kind.outputClass = true → ∀ m q, s.part.record m = some q → q.kind.outputClass = true →
          ¬q.SameRoute g a.station.toNat a.object.toNat) →
        (∀ m, m < s.part.slots.length → s.part.record m ≠ none) →
        exec (.insert p) s = .next (s.with (s.part.answer p f .tableFull [])))

/-- The first INSERT field that fails its check, in the order of the table, is named in the BAD_FIELD response, by its
offset in the argument block. -/
def Obligations.InsertNamesFirstBadField : Prop :=
  ∀ (p : Port) (s : State) (f : RequestFrame) (a : InsertArgs) (offset : Byte),
    s.part.Standing p .insert f → f.tag ≠ 0 → s.part.Unbound f.tag → insertArgs f.args = some a →
    (if a.kind ≠ 1 ∧ a.kind ≠ 2 ∧ a.kind ≠ 3 then some 0
      else if a.segment ≠ 0 ∧ a.segment ≠ 1 then some 1
      else if a.station = 0 ∨ 30 < a.station.toNat then some 2
      else if a.length = 0 ∨ 32 < a.length.toNat then some 4
      else if (a.kind = 1 ∧ a.period = 0) ∨ (a.kind = 3 ∧ a.period ≠ 0) then some 5
      else if (a.period ≠ 0 ∧ a.period.toNat ≤ a.phase.toNat) ∨ (a.period = 0 ∧ a.phase ≠ 0) then some 6
      else if (a.kind = 1 ∨ (a.kind = 2 ∧ a.period ≠ 0)) ∧ a.freshnessLimit = 0 then some 7
      else if 7 < a.retryBudget.toNat then some 8
      else if a.noticeMode ≠ 0 ∧ a.noticeMode ≠ 1 then some 9
      else if a.shared ≠ 0 ∧ a.shared ≠ 1 then some 10
      else if (a.kind ≠ 1 ∧ a.value.length ≠ a.length.toNat) ∨ (a.kind = 1 ∧ a.value ≠ []) then some 17
      else none) = some offset →
    exec (.insert p) s = .next (s.with (s.part.answer p f .badField [offset]))

/-! ### The requests on a record -/

/-- Checks 1 to 3 of AMEND, WRITE, RESUME, RESTART and RETIRE: the tag, its binding, and the owner. -/
def Obligations.RecordRequestsChecked : Prop :=
  ∀ (p : Port) (s : State) (f : RequestFrame) (c : Instr) (k : RequestCode),
    (c, k) ∈ [(Instr.amend p, RequestCode.amend), (.write p, .write), (.resume p, .resume), (.restart p, .restart),
      (.retire p, .retire)] →
    s.part.Standing p k f →
    (f.tag = 0 → exec c s = .next (s.with (s.part.answer p f .badTag []))) ∧
    (f.tag ≠ 0 → s.part.Unbound f.tag → exec c s = .next (s.with (s.part.answer p f .notFound []))) ∧
    ∀ n r, s.part.KeysUnique → s.part.Binds f.tag n r → r.owner ≠ p → r.shared = false →
      exec c s = .next (s.with (s.part.answer p f .notOwner []))

/-- WRONG_STATE: AMEND, WRITE and RETIRE of a RETIRING or RETIRED record, WRITE of an INPUT record, and RESUME and RESTART of
a record that is not HALTED or whose PRESENT station has another identity than the one it expects. -/
def Obligations.RecordRequestsWrongState : Prop :=
  ∀ (p : Port) (s : State) (f : RequestFrame) (n : Nat) (r : Record),
    s.part.KeysUnique → s.part.Binds f.tag n r → r.Allows p →
    (r.state = .retiring ∨ r.state = .retired →
      (s.part.Standing p .amend f → exec (.amend p) s = .next (s.with (s.part.answer p f .wrongState []))) ∧
      (s.part.Standing p .write f → exec (.write p) s = .next (s.with (s.part.answer p f .wrongState []))) ∧
      (s.part.Standing p .retire f → exec (.retire p) s = .next (s.with (s.part.answer p f .wrongState [])))) ∧
    (r.kind = .input → s.part.Standing p .write f →
      exec (.write p) s = .next (s.with (s.part.answer p f .wrongState []))) ∧
    (r.state ≠ .halted ∨ (∃ i j, r.expected = some i ∧ s.part.station r.segment r.station = some j ∧
        j.state = .present ∧ j.identity ≠ some i) →
      (s.part.Standing p .resume f → exec (.resume p) s = .next (s.with (s.part.answer p f .wrongState []))) ∧
      (s.part.Standing p .restart f → exec (.restart p) s = .next (s.with (s.part.answer p f .wrongState []))))

/-- An accepted AMEND that sets no identity differing from the PRESENT station's applies its changes, and nothing else. -/
def Obligations.AmendAccepted : Prop :=
  ∀ (p : Port) (s : State) (f : RequestFrame) (n : Nat) (r : Record) (a : AmendArgs),
    s.part.Standing p .amend f → s.part.KeysUnique → s.part.Binds f.tag n r → r.Allows p → r.state.active = true →
    amendArgs f.args = some a → a.failing r = none →
    (∀ i j, a.expected = some (some i) → s.part.station r.segment r.station = some j → j.state = .present →
      j.identity = some i) →
    let period := a.period.getD r.period
    let phase := a.phase.getD (if period = 0 then 0 else r.phase)
    let budget := (a.retryBudget.map fun b => if b = 0 then 3 else b).getD r.retryBudget
    exec (.amend p) s = .next (s.with ((s.part.withRecord n { r with
      period := period
      phase := phase
      countdown :=
        if a.period.isSome ∨ a.phase.isSome then (if period = 0 then none else some phase) else r.countdown
      freshnessLimit :=
        if r.kind = .input ∨ (r.kind = .output ∧ period ≠ 0) then
          (if a.freshnessLimit.isSome then a.freshnessLimit else r.freshnessLimit)
        else none
      retryBudget := budget
      errorCount := if a.retryBudget.isSome ∧ budget ≤ r.errorCount then budget - 1 else r.errorCount
      noticeMode := (a.noticeMode.map fun b => if b = 0 then NoticeMode.state else .stateValue).getD r.noticeMode
      shared := (a.shared.map (· == 1)).getD r.shared
      expected := a.expected.getD r.expected }).answer p f .done []))

/-- AMEND names the first resulting field that fails its check. -/
def Obligations.AmendNamesFirstBadField : Prop :=
  ∀ (p : Port) (s : State) (f : RequestFrame) (n : Nat) (r : Record) (a : AmendArgs) (offset : Byte),
    s.part.Standing p .amend f → s.part.KeysUnique → s.part.Binds f.tag n r → r.Allows p → r.state.active = true →
    amendArgs f.args = some a →
    let period := a.period.getD r.period
    let phase := a.phase.getD (if period = 0 then 0 else r.phase)
    let limit := if a.freshnessLimit.isSome then a.freshnessLimit else r.freshnessLimit
    (if (r.kind = .input ∧ period = 0) ∨ (r.kind = .guarded ∧ period ≠ 0) then some 1
      else if (period ≠ 0 ∧ period ≤ phase) ∨ (period = 0 ∧ phase ≠ 0) then some 2
      else if (r.kind = .input ∨ (r.kind = .output ∧ period ≠ 0)) ∧ (limit = none ∨ limit = some 0) then some 3
      else if ∃ b, a.retryBudget = some b ∧ 7 < b then some 4
      else if ∃ b, a.noticeMode = some b ∧ b ≠ 0 ∧ b ≠ 1 then some 5
      else if ∃ b, a.shared = some b ∧ b ≠ 0 ∧ b ≠ 1 then some 6
      else none) = some offset →
    exec (.amend p) s = .next (s.with (s.part.answer p f .badField [offset]))

/-- An accepted AMEND that sets an identity differing from the PRESENT station's halts a served record, which leaves the Due
Queue; a HALTED record takes the condition alone. -/
def Obligations.AmendComparesIdentity : Prop :=
  ∀ (p : Port) (s : State) (f : RequestFrame) (n : Nat) (r : Record) (a : AmendArgs) (i : Identity) (j : Station),
    s.part.Standing p .amend f → s.part.KeysUnique → s.part.Binds f.tag n r → r.Allows p →
    amendArgs f.args = some a → a.failing r = none → a.expected = some (some i) →
    s.part.station r.segment r.station = some j → j.state = .present → j.identity ≠ some i →
    (r.state.served = true → exec (.amend p) s = .next (s.with (((s.part.dequeue r.segment n).put n
      { a.apply r with state := .halted, condition := .identityMismatch } [.halted]).answer p f .done []))) ∧
    (r.state = .halted → exec (.amend p) s = .next (s.with ((s.part.withRecord n
      { a.apply r with condition := .identityMismatch }).answer p f .done [])))

/-- WRITE replaces the desired value whole and sets dirty, and rewritten while a STORE or STAGE of the record is in flight;
a value of another length is refused. -/
def Obligations.WriteAccepted : Prop :=
  ∀ (p : Port) (s : State) (f : RequestFrame) (n : Nat) (r : Record),
    s.part.Standing p .write f → s.part.KeysUnique → s.part.Binds f.tag n r → r.Allows p → r.kind ≠ .input →
    r.state ≠ .retiring → r.state ≠ .retired →
    let kind := (s.part.engine r.segment).inFlightKind n
    (f.args.length ≠ r.length → exec (.write p) s = .next (s.with (s.part.answer p f .badField [0]))) ∧
    (f.args.length = r.length → exec (.write p) s = .next (s.with ((s.part.withRecord n { r with
      value := some f.args
      dirty := true
      rewritten := r.rewritten || kind == some .store || kind == some .stage }).answer p f .done [])))

/-- RESUME and RESTART return a HALTED record to PENDING; on a guarded write RESUME keeps the phase it halted in, and RESTART
discards a write in STAGE and turns a later phase to CANCEL. -/
def Obligations.ResumeAndRestartAccepted : Prop :=
  ∀ (p : Port) (s : State) (f : RequestFrame) (n : Nat) (r : Record),
    s.part.KeysUnique → s.part.Binds f.tag n r → r.Allows p → r.state = .halted →
    (∀ i j, r.expected = some i → s.part.station r.segment r.station = some j → j.state = .present →
      j.identity = some i) →
    let back := { r with
      state := .pending
      errorCount := 0
      condition :=
        (match s.part.stationState r.segment r.station with
        | .present => .noneYet
        | .absent => .stationAbsent
        | .silent => .stationSilent
        | .barred => .stationBarred)
      dirty := r.dirty || decide (r.kind = .output) }
    (s.part.Standing p .resume f →
      exec (.resume p) s = .next (s.with ((s.part.withRecord n back).answer p f .done []))) ∧
    (s.part.Standing p .restart f → exec (.restart p) s = .next (s.with ((s.part.withRecord n
      (match r.guardPhase with
        | .closed => back
        | .stage => { back with guardPhase := .closed, guardToken := none, staged := none, dirty := true }
        | .verify | .commit | .cancel => { back with guardPhase := .cancel, dirty := true })).answer p f .done [])))

/-- RETIRE takes the record out of the Due Queue. With an exchange in flight it becomes RETIRING; with a cancel owed that
can be placed it becomes RETIRING with the CANCEL in the held part; otherwise it is RETIRED at once. -/
def Obligations.RetireAccepted : Prop :=
  ∀ (p : Port) (s : State) (f : RequestFrame) (n : Nat) (r : Record),
    s.part.Standing p .retire f → s.part.KeysUnique → s.part.Binds f.tag n r → r.Allows p → r.state.active = true →
    let u := s.part.dequeue r.segment n
    let owed := r.kind = .guarded ∧ (r.guardPhase = .verify ∨ r.guardPhase = .commit ∨ r.guardPhase = .cancel)
    let placeable := s.part.stationState r.segment r.station = .present ∧
      ((s.part.control r.segment).state = .running ∨ (s.part.control r.segment).state = .held)
    (s.part.inFlight n r = true → exec (.retire p) s =
      .next (s.with ((u.withRecord n { r with state := .retiring }).answer p f .accepted []))) ∧
    (s.part.inFlight n r = false → owed → placeable → exec (.retire p) s =
      .next (s.with (((u.withRecord n { r with state := .retiring, guardPhase := .cancel }).placeOwedCancel
        r.segment n).answer p f .accepted []))) ∧
    (s.part.inFlight n r = false → owed → ¬placeable → exec (.retire p) s =
      .next (s.with ((u.put n { r with state := .retired, condition := .cancelUnconfirmed } [.retired]).answer
        p f .done []))) ∧
    (s.part.inFlight n r = false → ¬owed → exec (.retire p) s =
      .next (s.with ((u.put n { r with state := .retired } [.retired]).answer p f .done [])))

/-- PURGE frees every record of the caller with nothing in flight, and leaves the others RETIRING with silent retire; they
all leave the Due Queues and the caller's list, and the answer counts both. Stations that lose their last record forget. -/
def Obligations.PurgeFreesOwned : Prop :=
  ∀ (p : Port) (s : State) (f : RequestFrame), s.part.Standing p .purge f → s.part.QueuesSound → s.part.ListsSound →
    let owned (n : Nat) : Prop := ∃ r, s.part.record n = some r ∧ r.owner = p
    let lost (t : Part) (g : Segment) (k : Nat) : Prop :=
      t.refCount g k = 0 ∧ ∃ n r, s.part.record n = some r ∧ r.owner = p ∧ s.part.inFlight n r = false ∧
        r.segment = g ∧ r.station = k
    ∃ (t : Part) (freed silenced : List Nat), exec (.purge p) s = .next (s.with (t.answer p f .done
        [BitVec.ofNat 8 (freed.length / 256), BitVec.ofNat 8 freed.length, BitVec.ofNat 8 (silenced.length / 256),
          BitVec.ofNat 8 silenced.length])) ∧
      (freed.Nodup ∧ ∀ n, n ∈ freed ↔ ∃ r, s.part.record n = some r ∧ r.owner = p ∧ s.part.inFlight n r = false) ∧
      (silenced.Nodup ∧ ∀ n, n ∈ silenced ↔ ∃ r, s.part.record n = some r ∧ r.owner = p ∧ s.part.inFlight n r = true) ∧
      (∀ n, n ∈ freed → t.record n = none) ∧
      (∀ n r, n ∈ silenced → s.part.record n = some r →
        t.record n = some { r with state := .retiring, silentRetire := true }) ∧
      (∀ n, ¬owned n → t.record n = s.part.record n) ∧
      (∀ q, (t.port q).attention = if q = p then [] else (s.part.port q).attention) ∧
      (∀ g, t.control g = s.part.control g ∧
        ∃ gone : Nat → Bool, (∀ n, gone n = true ↔ owned n) ∧ t.engine g = (s.part.engine g).remove gone) ∧
      (∀ g k e, s.part.station g k = some e →
        (lost t g k ∧ e.state = .silent → t.station g k = some ⟨.absent, none, 0⟩) ∧
        (lost t g k ∧ e.state = .absent → t.station g k = some { e with identity := none }) ∧
        (¬lost t g k ∨ e.state = .present ∨ e.state = .barred → t.station g k = some e)) ∧
      s.part.SameBus t ∧
      s.part.PortsFlagged t fun g => ∃ k e, lost t g k ∧ s.part.station g k = some e ∧ e.state = .silent

/-- Release of a slot: FREE, out of its segment's Due Queue and off its owner's list; a station whose last record it was
forgets its identity when it is ABSENT, and becomes ABSENT and forgets when it is SILENT, with the flags set. -/
def Obligations.ReleaseFreesSlot : Prop :=
  ∀ (s : Part) (n : Nat) (r : Record), s.record n = some r →
    let t := s.release n
    (∀ m, t.record m = if m = n then none else s.record m) ∧
    (∀ p, (t.port p).attention =
      if p = r.owner then (s.port p).attention.filter (· ≠ n) else (s.port p).attention) ∧
    (∀ g, t.control g = s.control g ∧
      t.engine g = if g = r.segment then (s.engine g).remove (· == n) else s.engine g) ∧
    t.refCount r.segment r.station = s.refCount r.segment r.station - 1 ∧
    (∀ g k e, s.station g k = some e →
      let last := g = r.segment ∧ k = r.station ∧ t.refCount g k = 0
      (last ∧ e.state = .silent → t.station g k = some ⟨.absent, none, 0⟩) ∧
      (last ∧ e.state = .absent → t.station g k = some { e with identity := none }) ∧
      (¬last ∨ e.state = .present ∨ e.state = .barred → t.station g k = some e)) ∧
    s.SameBus t ∧
    s.PortsFlagged t fun g => g = r.segment ∧ t.refCount g r.station = 0 ∧
      ∃ e, s.station g r.station = some e ∧ e.state = .silent

/-! ### Stations -/

/-- A station that leaves PRESENT: what becomes of its records, which all leave the Due Queue. -/
def Obligations.DepartureActsOnRecords : Prop :=
  ∀ (s : Part) (g : Segment) (k : Nat) (c : Condition),
    let t := s.departRecords g k c
    let cancelled (n : Nat) (r : Record) : Prop :=
      r.state = .retiring ∧ r.silentRetire = false ∧ (s.engine g).queued n = true
    s.RecordsBecome t (fun n r =>
      if r.segment = g ∧ r.station = k then
        match r.state with
        | .live => Record.withReasons { r with state := .stale, condition := c } [.stale]
        | .pending | .stale => { r with condition := c }
        | .halted | .retired => r
        | .retiring =>
          if (s.engine g).queued n ∧ r.silentRetire = false then
            Record.withReasons { r with state := .retired, condition := .cancelUnconfirmed } [.retired]
          else r
      else r) ∧
    s.ListsGain t (fun n r => r.segment = g ∧ r.station = k ∧ (r.state = .live ∨ cancelled n r)) ∧
    (∃ gone : Nat → Bool, (∀ n, gone n = true ↔ ∃ r, s.record n = some r ∧ r.segment = g ∧ r.station = k) ∧
      t.engine g = (s.engine g).remove gone) ∧
    (t.seg g).stations = (s.seg g).stations ∧ t.control g = s.control g ∧ s.SameOther t g ∧ s.SameBus t ∧
    s.PortsFlagged t (fun _ => False)

/-- STATION_QUERY, STATION_BAR and STATION_UNBAR check the segment, then the station; an accepted STATION_QUERY reports the
entry and changes nothing. -/
def Obligations.StationQueryAnswers : Prop :=
  ∀ (p : Port) (s : State) (f : RequestFrame) (x y : Byte), f.args = [x, y] →
    (∀ c k, (c, k) ∈ [(Instr.stationQuery p, RequestCode.stationQuery), (.stationBar p, .stationBar),
        (.stationUnbar p, .stationUnbar)] → s.part.Standing p k f →
      (x ≠ 0 ∧ x ≠ 1 → exec c s = .next (s.with (s.part.answer p f .badField [0]))) ∧
      (x = 0 ∨ x = 1 → y = 0 ∨ 30 < y.toNat → exec c s = .next (s.with (s.part.answer p f .badField [1])))) ∧
    ∀ g e, s.part.Standing p .stationQuery f → x = segmentCode g → 1 ≤ y.toNat → y.toNat ≤ 30 →
      s.part.station g y.toNat = some e →
      exec (.stationQuery p) s = .next (s.with (s.part.answer p f .done (
        [x, y, e.state.code] ++
        (match e.identity with
          | some i => 1#8 :: identityBytes i
          | none => [0, 0, 0, 0, 0, 0]) ++
        [BitVec.ofNat 8 e.silence, BitVec.ofNat 8 (s.part.refCount g y.toNat / 256),
          BitVec.ofNat 8 (s.part.refCount g y.toNat)])))

/-- STATION_BAR: a PRESENT station departs with STATION_BARRED; the records of an ABSENT or SILENT one take the condition; a
BARRED one is left alone. -/
def Obligations.StationBarActs : Prop :=
  ∀ (p : Port) (s : State) (f : RequestFrame) (g : Segment) (y : Byte) (e : Station),
    s.part.Standing p .stationBar f → f.args = [segmentCode g, y] → 1 ≤ y.toNat → y.toNat ≤ 30 →
    s.part.station g y.toNat = some e →
    let k := y.toNat
    let barred := s.part.withStation g k ⟨.barred, e.identity, 0⟩
    (e.state = .barred → exec (.stationBar p) s = .next (s.with (s.part.answer p f .done []))) ∧
    (e.state = .present → exec (.stationBar p) s =
      .next (s.with (((barred.departRecords g k .stationBarred).setFlags g).answer p f .done []))) ∧
    (e.state = .silent ∨ e.state = .absent →
      ∃ t, exec (.stationBar p) s = .next (s.with (t.answer p f .done [])) ∧
        s.part.RecordsBecome t (fun _ r =>
          if r.segment = g ∧ r.station = k ∧ (r.state = .pending ∨ r.state = .stale) then
            { r with condition := .stationBarred }
          else r) ∧
        (∀ q, (t.port q).attention = (s.part.port q).attention) ∧ (∀ h, t.seg h = barred.seg h) ∧ s.part.SameBus t ∧
        s.part.PortsFlagged t (· = g))

/-- STATION_UNBAR of a BARRED station: ABSENT, its identity kept while records are routed to it; of any other: WRONG_STATE. -/
def Obligations.StationUnbarActs : Prop :=
  ∀ (p : Port) (s : State) (f : RequestFrame) (g : Segment) (y : Byte) (e : Station),
    s.part.Standing p .stationUnbar f → f.args = [segmentCode g, y] → 1 ≤ y.toNat → y.toNat ≤ 30 →
    s.part.station g y.toNat = some e →
    let k := y.toNat
    let absent := s.part.withStation g k ⟨.absent, if s.part.refCount g k = 0 then none else e.identity, 0⟩
    (e.state ≠ .barred → exec (.stationUnbar p) s = .next (s.with (s.part.answer p f .wrongState []))) ∧
    (e.state = .barred →
      ∃ t, exec (.stationUnbar p) s = .next (s.with (t.answer p f .done [])) ∧
        s.part.RecordsBecome t (fun _ r =>
          if r.segment = g ∧ r.station = k ∧ (r.state = .pending ∨ r.state = .stale) ∧ r.condition = .stationBarred then
            { r with condition := .stationAbsent }
          else r) ∧
        (∀ q, (t.port q).attention = (s.part.port q).attention) ∧ (∀ h, t.seg h = absent.seg h) ∧ s.part.SameBus t ∧
        s.part.PortsFlagged t (· = g))

/-! ### Segments -/

/-- SEGMENT_CONFIGURE: the segment, then its state, then the five settings are checked; accepted, it replaces all five and
nothing else. Where the Station Directory's part of a teardown waits, an acceptable one stands SUBMITTED until that part is
taken: the model's reading of R141 (log 32). -/
def Obligations.SegmentConfigureAnswers : Prop :=
  ∀ (p : Port) (s : State) (f : RequestFrame) (x rate high low window settle limit : Byte),
    s.part.Standing p .segmentConfigure f → f.args = [x, rate, high, low, window, settle, limit] →
    (x ≠ 0 ∧ x ≠ 1 → exec (.segmentConfigure p) s = .next (s.with (s.part.answer p f .badField [0]))) ∧
    ∀ g, x = segmentCode g →
      let period := high.toNat * 256 + low.toNat
      let bad : Option Byte :=
        if rate ≠ 0 ∧ rate ≠ 1 ∧ rate ≠ 2 then some 1
        else if period < 10 ∨ 2000 < period then some 2
        else if window.toNat < 16 then some 4
        else if settle = 0 then some 5
        else if limit = 0 ∨ 15 < limit.toNat then some 6
        else none
      ((s.part.control g).state ≠ .off →
        exec (.segmentConfigure p) s = .next (s.with (s.part.answer p f .wrongState []))) ∧
      ((s.part.control g).state = .off → ∀ offset, bad = some offset →
        exec (.segmentConfigure p) s = .next (s.with (s.part.answer p f .badField [offset]))) ∧
      ((s.part.control g).state = .off → bad = none → (s.part.control g).stationTeardowns ≠ 0 →
        exec (.segmentConfigure p) s = .next s) ∧
      ((s.part.control g).state = .off → bad = none → (s.part.control g).stationTeardowns = 0 →
        exec (.segmentConfigure p) s = .next (s.with ((s.part.updateControl g fun c => { c with
          config := ⟨if rate = 0 then .kbit250 else if rate = 1 then .mbit1 else .mbit2p5, period, window.toNat,
            settle.toNat, limit.toNat⟩ }).answer p f .done [])))

/-- SEGMENT_COMMAND is refused with BAD_FIELD for a segment or command that is none (which row of the model takes a frame with
a bad command byte is log 12), and otherwise answered by the table; where the state stays, the segment is as it was. An ON is
taken here with SxFLT deasserted; see CommandsOnAndOff. -/
def Obligations.SegmentCommandTable : Prop :=
  ∀ (p : Port) (s : State) (f : RequestFrame) (x y : Byte) (row : SegmentCommand),
    s.part.Standing p .segmentCommand f → f.args = [x, y] →
    let command : Instr :=
      match row with
      | .on => .segmentCommandOn p
      | .off => .segmentCommandOff p
      | .hold => .segmentCommandHold p
      | .release => .segmentCommandRelease p
    (x ≠ 0 ∧ x ≠ 1 → y = row.code ∨ 3 < y.toNat →
      exec command s = .next (s.with (s.part.answer p f .badField [0]))) ∧
    (x = 0 ∨ x = 1 → 3 < y.toNat → exec command s = .next (s.with (s.part.answer p f .badField [1]))) ∧
    ∀ g, x = segmentCode g → y = row.code →
      let now := (s.part.control g).state
      let table : Status × SegmentState :=
        match row, now with
        | .on, .off => (.done, .powering)
        | .on, .powering | .on, .scanning | .on, .running => (.segmentBusy, now)
        | .on, .held | .on, .fault => (.wrongState, now)
        | .off, _ => (.done, .off)
        | .hold, .running => (.done, .held)
        | .release, .held => (.done, .running)
        | .hold, _ | .release, _ => (.wrongState, now)
      (row = .on → now = .off → (s.part.control g).faultIn = false) →
      ∃ t, exec command s = .next (s.with (t.answer p f table.1 [])) ∧ (t.control g).state = table.2 ∧
        (table.2 = now → t = s.part)

/-- ON powers the segment and starts the settle timer, and with SxFLT asserted the segment is in FAULT at once. OFF tears a
powered segment down: SxPWR and SxDE released, timers stopped, queue emptied, exchange abandoned, the two other parts of the
teardown handed out. In FAULT, OFF changes the state alone. That a cycle step not yet taken is dropped is the
model's choice (log 14); the settle time is counted in CLK cycles (log 4). -/
def Obligations.CommandsOnAndOff : Prop :=
  ∀ (p : Port) (s : State) (f : RequestFrame) (g : Segment),
    s.part.Standing p .segmentCommand f →
    let torn (u : Part) (new : SegmentState) : Part :=
      ((u.updateControl g fun c => { c with
        state := new
        powerOut := false
        settleTimer := none
        scanPosition := none
        stationTeardowns := c.stationTeardowns + 1
        recordTeardowns := c.recordTeardowns ++ [(u.engine g).exchange] }).setFlags g).updateEngine g fun e => { e with
          active := []
          held := []
          exchange := none
          state := .ready
          cycleTimer := none
          cycleClosed := false
          probeTaken := false
          probeCursor := 1
          markOwed := false
          frame := []
          stepsDue := 0 }
    let powering := (s.part.updateControl g fun c => { c with
      state := .powering
      powerOut := true
      settleTimer := some (c.config.settleTime * 200000)
      scanPosition := none }).setFlags g
    let now := (s.part.control g).state
    (f.args = [segmentCode g, 0] → now = .off →
      ((s.part.control g).faultIn = false →
        exec (.segmentCommandOn p) s = .next (s.with (powering.answer p f .done []))) ∧
      ((s.part.control g).faultIn = true →
        exec (.segmentCommandOn p) s = .next (s.with ((torn powering .fault).answer p f .done [])))) ∧
    (f.args = [segmentCode g, 1] →
      (now = .off → exec (.segmentCommandOff p) s = .next (s.with (s.part.answer p f .done []))) ∧
      (now = .fault → exec (.segmentCommandOff p) s =
        .next (s.with (((s.part.updateControl g fun c => { c with state := .off }).setFlags g).answer p f .done []))) ∧
      (now ≠ .off → now ≠ .fault →
        exec (.segmentCommandOff p) s = .next (s.with ((torn s.part .off).answer p f .done []))))

/-- HOLD stops the cycle timer and owes no MARK; RELEASE sends the MARK of cycle 0 at once when the engine is READY, and owes
it otherwise. -/
def Obligations.CommandsHoldAndRelease : Prop :=
  ∀ (p : Port) (s : State) (f : RequestFrame) (g : Segment), s.part.Standing p .segmentCommand f →
    let c := (s.part.control g).config
    let into (new : SegmentState) := (s.part.updateControl g fun c => { c with state := new }).setFlags g
    (f.args = [segmentCode g, 2] → (s.part.control g).state = .running →
      exec (.segmentCommandHold p) s = .next (s.with (((into .held).updateEngine g fun e =>
        { e with cycleTimer := none, markOwed := false }).answer p f .done []))) ∧
    (f.args = [segmentCode g, 3] → (s.part.control g).state = .held →
      ((s.part.engine g).state = .ready →
        exec (.segmentCommandRelease p) s = .next (s.with (((into .running).updateEngine g fun e => { e with
          cycleNumber := 0
          cycleTimer := some (c.cyclePeriod * 1000)
          markOwed := false
          stepsDue := e.stepsDue + 1
          state := .request (c.bits 80)
          frame := markFrame 0 }).answer p f .done []))) ∧
      ((s.part.engine g).state ≠ .ready →
        exec (.segmentCommandRelease p) s = .next (s.with (((into .running).updateEngine g fun e =>
          { e with markOwed := true }).answer p f .done []))))

/-- SEGMENT_STATUS reports the segment and clears the caller's segment-change flag for it, and nothing else. The forms of the
items that R191 does not name (the reply window, the settle time, the silence limit) are the model's reading (log 28). -/
def Obligations.SegmentStatusReports : Prop :=
  ∀ (p : Port) (s : State) (f : RequestFrame) (x : Byte), s.part.Standing p .segmentStatus f → f.args = [x] →
    (x ≠ 0 ∧ x ≠ 1 → exec (.segmentStatus p) s = .next (s.with (s.part.answer p f .badField [0]))) ∧
    ∀ g, x = segmentCode g →
      let c := (s.part.control g).config
      let cycle := (s.part.engine g).cycleNumber.toNat
      exec (.segmentStatus p) s = .next (s.with ((s.part.updatePort p (·.withFlag g false)).answer p f .done
        [x, (s.part.control g).state.code, c.bitRate.code, BitVec.ofNat 8 (c.cyclePeriod / 256),
          BitVec.ofNat 8 c.cyclePeriod, BitVec.ofNat 8 c.replyWindow, BitVec.ofNat 8 c.settleTime,
          BitVec.ofNat 8 c.silenceLimit, BitVec.ofNat 8 (cycle / 256), BitVec.ofNat 8 cycle,
          BitVec.ofNat 8 ((s.part.seg g).stations.filter (·.state == .present)).length,
          if (s.part.control g).faultIn then 1 else 0]))

/-! ### Attention -/

/-- TAKE_ATTENTION returns the notice at the head of the caller's list and empties its reason set; the slot of a RETIRED
record is released. An empty list is answered EMPTY. -/
def Obligations.TakeAttentionReturnsHead : Prop :=
  ∀ (p : Port) (s : State) (f : RequestFrame), s.part.Standing p .takeAttention f →
    ((s.part.port p).attention = [] →
      exec (.takeAttention p) s = .next (s.with (s.part.answer p f .empty []))) ∧
    ∀ n rest r, (s.part.port p).attention = n :: rest → s.part.record n = some r →
      let u := (s.part.updatePort p fun u => { u with attention := rest }).withRecord n
        { r with reasons := ⟨false, false, false, false, false, false, false, false⟩ }
      exec (.takeAttention p) s = .next (s.with ((if r.state = .retired then u.release n else u).answer p f .done
        [BitVec.ofNat 8 n, BitVec.ofNat 8 (r.tag / 256), BitVec.ofNat 8 r.tag, r.state.code, r.condition.code,
          r.reasons.code, BitVec.ofNat 8 rest.length]))

/-- PORT_CONFIGURE checks its two arguments in order and replaces both enables of the caller. The line of a port is asserted
while its list is not empty and enabled, or one of its flags is set and enabled. -/
def Obligations.PortConfigureSetsEnables : Prop :=
  (∀ (p : Port) (s : State) (f : RequestFrame) (x y : Byte), s.part.Standing p .portConfigure f → f.args = [x, y] →
    (x ≠ 0 ∧ x ≠ 1 → exec (.portConfigure p) s = .next (s.with (s.part.answer p f .badField [0]))) ∧
    (x = 0 ∨ x = 1 → y ≠ 0 ∧ y ≠ 1 →
      exec (.portConfigure p) s = .next (s.with (s.part.answer p f .badField [1]))) ∧
    (x = 0 ∨ x = 1 → y = 0 ∨ y = 1 →
      exec (.portConfigure p) s = .next (s.with ((s.part.updatePort p fun u =>
        { u with listEnable := x == 1, segmentEnable := y == 1 }).answer p f .done [])))) ∧
  ∀ u : PortUnit, u.interrupt = true ↔
    (u.attention ≠ [] ∧ u.listEnable = true) ∨ ((u.flagA = true ∨ u.flagB = true) ∧ u.segmentEnable = true)

/-! ### The ports -/

/-- SUBMIT, which operation byte 0xA1 chooses: an EMPTY port takes the frame when it is complete, checks it, and ignores what
follows; a partial frame is discarded; a port that is not EMPTY shifts out PORT_BUSY and keeps what it holds. The falling edge
of P0CSn samples the status byte that goes out first, its rising edge ends the transaction, and what is clocked without a
falling edge of its own, or after one that was abandoned by a reset, does nothing (three commands, or one: log 24). The link
answer after a complete frame is the model's choice (log 18), and the record of what P0SDO shifted out is its own (log 13). -/
def Obligations.SubmitTakesFrame : Prop :=
  port0Transaction [] = none ∧ (∀ bytes, port0Transaction (0xA1 :: bytes) = some (.submit (.whole bytes))) ∧
  ∀ (s : State) (bytes : List Byte), s.part.resetLow = false →
    let u := s.part.port0
    exec (.submit .fall) s = .next (s.with { s.part with port0Phase := .begun, port0Out := [u.statusByte] }) ∧
    exec (.submit .rise) s = .next (s.with { s.part with port0Phase := .idle }) ∧
    (s.part.port0Phase ≠ .begun → exec (.submit (.rest bytes)) s = .next s) ∧
    ∀ (c : Instr) (first : List Byte) (phase : Port0Phase),
      (c = .submit (.rest bytes) ∧ s.part.port0Phase = .begun ∧ first = s.part.port0Out ∧ phase = .operating) ∨
        (c = .submit (.whole bytes) ∧ first = [u.statusByte] ∧ phase = .idle) →
      let after (b : Buffer) (answer : Byte) : State := s.with { s.part with
        port0 := { u with buffer := b }
        port0Phase := phase
        port0Out := first ++ List.replicate (bytes.length + 1) answer }
      (u.buffer = .empty →
        (∀ code sequence high low n args extra, n.toNat = args.length →
          bytes = code :: sequence :: high :: low :: n :: (args ++ extra) →
          let f : RequestFrame := ⟨code, sequence, high.toNat * 256 + low.toNat, args⟩
          let passes := ∃ c : RequestCode, c.code = code ∧ c.argRange.1 ≤ args.length ∧ args.length ≤ c.argRange.2
          (passes → exec c s = .next (after (.submitted f) 0x00)) ∧
          (¬passes → exec c s = .next (after (.answered [0x10, sequence, code, 0]) 0x00))) ∧
        ((∀ n, bytes[4]? = some n → bytes.length < 5 + n.toNat) → exec c s = .next (after .empty 0x00))) ∧
      (u.buffer ≠ .empty → exec c s = .next (after u.buffer 0x1C))

/-- COLLECT (operation byte 0xA2) shifts out the response, or the NOT_READY frame, and empties the port with the response's
last byte; POLL (0xA3) shifts out the port status byte, and an operation byte that names no operation zeros, and both change
nothing else. The falling edge of P0CSn samples the status byte that goes out first, its rising edge ends the transaction, and
what is clocked without a falling edge of its own, or after one that was abandoned by a reset, does nothing (three commands,
or one: log 24). Every byte travels most significant bit first: from P0SDI, a bit is taken on each rising edge of P0SCK, and
P0SDO, driven only while P0CSn is low, changes after each falling edge, to the rise of P0CSn. The record of what P0SDO shifts
out is the model's own (log 13). -/
def Obligations.CollectAndPollShiftOut : Prop :=
  (∀ (operation : Byte) (bytes : List Byte),
    port0Transaction (0xA2 :: bytes) = some (.collect (.whole bytes.length)) ∧
    port0Transaction (0xA3 :: bytes) = some (.poll (.whole bytes.length)) ∧
    (operation ≠ 0xA1 → operation ≠ 0xA2 → operation ≠ 0xA3 →
      port0Transaction (operation :: bytes) = some (.unknownOperation operation (.whole bytes.length)))) ∧
  (∀ (s : State) (n : Nat) (operation : Byte), s.part.resetLow = false →
    operation ≠ 0xA1 → operation ≠ 0xA2 → operation ≠ 0xA3 →
    let u := s.part.port0
    (∀ c : Instr, c = .collect .fall ∨ c = .poll .fall ∨ c = .unknownOperation operation .fall →
      exec c s = .next (s.with { s.part with port0Phase := .begun, port0Out := [u.statusByte] })) ∧
    (∀ c : Instr, c = .collect .rise ∨ c = .poll .rise ∨ c = .unknownOperation operation .rise →
      exec c s = .next (s.with { s.part with port0Phase := .idle })) ∧
    (∀ c : Instr, c = .collect (.rest n) ∨ c = .poll (.rest n) ∨ c = .unknownOperation operation (.rest n) →
      s.part.port0Phase ≠ .begun → exec c s = .next s) ∧
    ∀ (form : Nat → Spi Nat) (first : List Byte) (phase : Port0Phase),
      (form = .rest ∧ s.part.port0Phase = .begun ∧ first = s.part.port0Out ∧ phase = .operating) ∨
        (form = .whole ∧ first = [u.statusByte] ∧ phase = .idle) →
      let after (frame : List Byte) (b : Buffer) : State := s.with { s.part with
        port0 := { u with buffer := b }
        port0Phase := phase
        port0Out := first ++ (frame ++ List.replicate (n + 1) 0).take (n + 1) }
      (u.buffer = .empty → exec (.collect (form n)) s = .next (after [0x1B, 0, 0, 0] .empty)) ∧
      (∀ f, u.buffer = .submitted f →
        exec (.collect (form n)) s = .next (after [0x1B, f.sequence, f.code, 0] (.submitted f))) ∧
      (∀ r, u.buffer = .answered r →
        exec (.collect (form n)) s = .next (after r (if r.length ≤ n then .empty else .answered r))) ∧
      exec (.poll (form n)) s = .next (after [u.statusByte] u.buffer) ∧
      exec (.unknownOperation operation (form n)) s = .next (after [] u.buffer)) ∧
  (∀ u : PortUnit,
    u.statusByte.toNat =
      (match u.buffer with
        | .empty => 0
        | .submitted _ => 1
        | .answered _ => 2) +
      (if u.attention = [] then 0 else 4) + (if u.flagA then 8 else 0) + (if u.flagB then 16 else 0)) ∧
  (∀ (s : Part) (clock : List Bool),
    let falls := ((false :: clock).zip clock).countP fun edge => edge.1 && !edge.2
    (s.port0Phase = .idle → s.port0Level clock = none) ∧
    (s.port0Phase ≠ .idle → ∀ b, s.port0Out[falls / 8]? = some b →
      s.port0Level clock = some (b.getLsbD (7 - falls % 8)))) ∧
  ∀ line : List (Bool × Bool),
    let taken := (((false, false) :: line).zip line).filterMap fun edge =>
      if edge.1.1 = false ∧ edge.2.1 = true then some edge.2.2 else none
    (taken.length < 8 → port0Command line = none) ∧
    ∀ (bytes : List Byte) (part : List Bool), part.length < 8 →
      taken = (bytes.flatMap fun b => [7, 6, 5, 4, 3, 2, 1, 0].map b.getLsbD) ++ part →
      port0Command line = port0Transaction bytes ∧
      ∀ s : Part, s.port0Phase ≠ .idle → s.port0Out.length = bytes.length + 1 →
        (s.port0Level (line.map Prod.fst)).isSome = true

/-- WRITE_TRANSFER and READ_TRANSFER at the part's own address do on Port 1 what SUBMIT and COLLECT do on Port 0, with
acknowledge bits in place of the link answer; to any other address the part does not answer. The address byte holds the
address above the direction bit, which is 0 for a write and 1 for a read. The recorded output is the model's own (log 13).
Every byte travels most significant bit first and is followed by an acknowledge bit, which is low for ACK; the part leaves
P1SDA high in the bits that are the processor's. The levels of P1SCL and P1SDA make the commands: a bit is sampled while P1SCL
is high, a stop condition or a repeated start condition ends a transfer, and a condition in the middle of a byte is a bus
error (the levels of the two conditions: log 40; clocks after a processor's NACK: log 41). -/
def Obligations.Port1TransfersAct : Prop :=
  (let start : List (Bool × Bool) := [(true, true), (true, false)]
    let clocked (bits : List Bool) := bits.flatMap fun bit => [(false, bit), (true, bit), (false, bit)]
    let stop : List (Bool × Bool) := [(false, false), (true, false), (true, true)]
    ∀ part : List Bool, part.length < 8 →
      port1Commands (start ++ clocked part ++ stop) = [] ∧
      ∀ (first : Byte) (ack : Bool) (data : List (Byte × Bool)) (sent : Nat),
        (sent = data.length ∧ ∀ b ∈ data, b.2 = false) ∨
          (∃ before last after, data = before ++ (last, true) :: after ∧ (∀ b ∈ before, b.2 = false) ∧
            sent = before.length + 1) →
        let bits := ((first, ack) :: data).flatMap fun b => [7, 6, 5, 4, 3, 2, 1, 0].map b.1.getLsbD ++ [b.2]
        let begun := start ++ clocked (bits ++ part)
        let command (between : TransferEnd) :=
          port1Transfer first (data.map Prod.fst) (if part = [] then between else .busError) sent
        port1Commands begun = [] ∧ port1Commands (begun ++ stop) = [command .stop] ∧
        ∀ line, port1Commands (begun ++ [(false, true), (true, true), (true, false)] ++ line) =
          command .repeatedStart :: port1Commands (start ++ line)) ∧
  ∀ (address : BitVec 7) (bytes : List Byte) (ending : TransferEnd) (n : Nat),
    port1Transfer (address ++ 0#1) bytes ending n = .writeTransfer address bytes ending ∧
    port1Transfer (address ++ 1#1) bytes ending n = .readTransfer address n ∧
    ∀ s : State, s.part.resetLow = false →
    let u := s.part.port1
    let after (acks : List Bool) (out : List Byte) (b : Buffer) : State := s.with { s.part with
      port1 := { u with buffer := b }
      port1Acks := acks
      port1Out := out }
    let write := exec (.writeTransfer address bytes ending) s
    let read := exec (.readTransfer address n) s
    (address ≠ s.part.port1Address → write = .next (after [] [] u.buffer) ∧ read = .next (after [] [] u.buffer)) ∧
    (address = s.part.port1Address →
      (u.buffer = .empty →
        (∀ code sequence high low k args extra, k.toNat = args.length →
          bytes = code :: sequence :: high :: low :: k :: (args ++ extra) →
          let f : RequestFrame := ⟨code, sequence, high.toNat * 256 + low.toNat, args⟩
          let passes := ∃ c : RequestCode, c.code = code ∧ c.argRange.1 ≤ args.length ∧ args.length ≤ c.argRange.2
          let acks := List.replicate (1 + 5 + args.length) true ++ List.replicate extra.length false
          (passes → write = .next (after acks [] (.submitted f))) ∧
          (¬passes → write = .next (after acks [] (.answered [0x10, sequence, code, 0])))) ∧
        ((∀ k, bytes[4]? = some k → bytes.length < 5 + k.toNat) →
          write = .next (after (List.replicate (1 + bytes.length) true) [] .empty)) ∧
        read = .next (after [true] (([0x1B#8, 0, 0, 0] ++ List.replicate n 0).take n) .empty)) ∧
      (u.buffer ≠ .empty → write = .next (after (true :: List.replicate bytes.length false) [] u.buffer)) ∧
      (∀ f, u.buffer = .submitted f →
        read = .next (after [true] (([0x1B, f.sequence, f.code, 0] ++ List.replicate n 0).take n) (.submitted f))) ∧
      (∀ r, u.buffer = .answered r →
        read = .next (after [true] ((r ++ List.replicate n 0).take n) (if r.length ≤ n then .empty else .answered r)))) ∧
    ∀ (k i : Nat), i < 9 →
      let bit := s.part.port1Levels[9 * k + i]?
      (∀ ack, s.part.port1Acks[k]? = some ack → bit = some (decide (i < 8) || !ack)) ∧
      ∀ b, s.part.port1Acks.length ≤ k → s.part.port1Out[k - s.part.port1Acks.length]? = some b →
        bit = some (decide (i = 8) || b.getLsbD (7 - i))

/-! ### The cycle -/

/-- The cycle timer's expiry sends the next MARK, starts the timer again and hands over a cycle step; the end of the MARK leads
to a settling time of the gap, and the end of a request's frame opens the reply window. Time passes as the frame does, in CLK
cycles (log 4). The bytes of a MARK, the check of a frame bit by bit, SxDE, and the level of SxTX in each bit time of a frame
are as the link has them. -/
def Obligations.MarksAndFramesAreSent : Prop :=
  (∀ cycle : BitVec 16,
    let body : List Byte := [0x01, 0, 0, 2, cycle.extractLsb' 8 8, cycle.extractLsb' 0 8]
    markFrame cycle = body ++ [(check body).extractLsb' 8 8, (check body).extractLsb' 0 8]) ∧
  check [] = 0xFFFF ∧
  (∀ bytes b, check (bytes ++ [b]) = [7, 6, 5, 4, 3, 2, 1, 0].foldl (fun (register : BitVec 16) i =>
    if register.getLsbD 15 = b.getLsbD i then register <<< 1 else (register <<< 1) ^^^ 0x1021#16) (check bytes)) ∧
  check [0x31, 0x32, 0x33, 0x34, 0x35, 0x36, 0x37, 0x38, 0x39] = 0x29B1 ∧
  (∀ e : Engine, (e.driverEnable = true ↔ ∃ left, e.state = .request left) ∧
    ∀ bit, e.txLevel bit =
      match e.frame[bit / 10]? with
      | none => true
      | some b => if bit % 10 = 0 then false else if bit % 10 = 9 then true else b.getLsbD (bit % 10 - 1)) ∧
  ∀ (g : Segment) (s : State), s.part.resetLow = false →
    let e := s.part.engine g
    let c := (s.part.control g).config
    let become (e' : Engine) : State := s.with (s.part.updateEngine g fun _ => e')
    (∀ left, e.state = .ready → (s.part.control g).state = .running → e.cycleTimer = some left →
      exec (.cycleTimerExpiry g) s = .next (become { e with
        cycleNumber := e.cycleNumber + 1
        cycleTimer := some (c.cyclePeriod * 1000)
        markOwed := false
        stepsDue := e.stepsDue + 1
        state := .request (c.bits 80)
        frame := markFrame (e.cycleNumber + 1) })) ∧
    (∀ left, e.state = .request left → e.exchange = none →
      exec (.markEnd g) s = .next (become { e with
        state := .settle (c.bits 20)
        frame := []
        cycleTimer := e.cycleTimer.map (· - left) })) ∧
    (∀ left x, e.state = .request left → e.exchange = some x →
      exec (.requestEnd g) s = .next (become { e with
        state := .wait (c.bits c.replyWindow)
        frame := []
        cycleTimer := e.cycleTimer.map (· - left)
        exchange := some { x with reserveLeft := x.reserveLeft - left } }))

/-- A cycle step counts age and countdown of every record of the segment, makes the freshness check, and rebuilds the Due
Queue: what stood in it, then the newly due output-class records, then the newly due INPUT records, in slot order. It waits for
the outcome and the teardowns handed over before it (logs 7, 25). -/
def Obligations.CycleStepActs : Prop :=
  ∀ (g : Segment) (s : State), s.part.resetLow = false → (s.part.engine g).stepsDue ≠ 0 →
    (s.part.engine g).toTable = [] → (s.part.control g).stationTeardowns = 0 → (s.part.control g).recordTeardowns = [] →
    let e := s.part.engine g
    let outlived (r : Record) : Prop := r.state = .live ∧ (r.kind = .input ∨ (r.kind = .output ∧ r.period ≠ 0)) ∧
      ∃ limit, r.freshnessLimit = some limit ∧ limit < min 255 (r.age + 1)
    let due (n : Nat) (r : Record) : Prop := r.segment = g ∧
      (r.state = .pending ∨ r.state = .live ∨ r.state = .stale) ∧ s.part.stationState g r.station = .present ∧
      e.queued n = false ∧
      (r.countdown = some 0 ∨ (r.kind ≠ .input ∧ r.dirty = true) ∨ (r.kind = .guarded ∧ r.guardPhase ≠ .closed))
    ∃ t outputs inputs, exec (.cycleStep g) s = .next (s.with t) ∧
      (∀ n r, s.part.record n = some r → r.segment = g →
        let r' := { r with
          age := min 255 (r.age + 1)
          countdown :=
            match r.countdown with
            | none => none
            | some 0 => some (r.period - 1)
            | some (k + 1) => some k }
        (outlived r → t.record n = some (Record.withReasons { r' with state := .stale } [.stale])) ∧
        (¬outlived r → t.record n = some r')) ∧
      (∀ n, (∀ r, s.part.record n = some r → r.segment ≠ g) → t.record n = s.part.record n) ∧
      s.part.ListsGain t (fun _ r => r.segment = g ∧ outlived r) ∧
      (List.Pairwise (· < ·) outputs ∧
        ∀ n, n ∈ outputs ↔ ∃ r, s.part.record n = some r ∧ due n r ∧ r.kind ≠ .input) ∧
      (List.Pairwise (· < ·) inputs ∧
        ∀ n, n ∈ inputs ↔ ∃ r, s.part.record n = some r ∧ due n r ∧ r.kind = .input) ∧
      t.engine g = { e with
        active := e.active.map (fun q => ⟨q.slot, true⟩) ++ e.held.map (fun n => ⟨n, true⟩) ++
          outputs.map (fun n => ⟨n, false⟩) ++ inputs.map (fun n => ⟨n, false⟩)
        held := []
        cycleClosed := false
        probeTaken := false
        stepsDue := e.stepsDue - 1 } ∧
      (t.seg g).stations = (s.part.seg g).stations ∧ t.control g = s.part.control g ∧ s.part.SameOther t g ∧
      s.part.SameBus t ∧ s.part.PortsFlagged t (fun _ => False)

/-- The end of a settling time leads to READY; a MARK that is owed is sent at once; in SCANNING the turn passes to the next
ABSENT or SILENT station, and after the last of them the segment is RUNNING and sends its MARK of cycle 0. That
stations are passed over at this moment is the model's choice (log 17). -/
def Obligations.SettlingEndActs : Prop :=
  ∀ (g : Segment) (s : State) (left : Nat), s.part.resetLow = false → (s.part.engine g).state = .settle left →
    let e := s.part.engine g
    let c := s.part.control g
    let quiet : Engine := { e.elapse left with state := .ready }
    let marked : Engine := { e.elapse left with
      cycleNumber := 0
      cycleTimer := some (c.config.cyclePeriod * 1000)
      markOwed := false
      stepsDue := e.stepsDue + 1
      state := .request (c.config.bits 80)
      frame := markFrame 0 }
    let ready := s.part.updateEngine g fun _ => quiet
    (e.markOwed = true → exec (.settlingEnd g) s = .next (s.with (s.part.updateEngine g fun _ => marked))) ∧
    (e.markOwed = false → c.state ≠ .scanning → exec (.settlingEnd g) s = .next (s.with ready)) ∧
    ∀ position, e.markOwed = false → c.state = .scanning → c.scanPosition = some position →
      (∀ n, position < n → n ≤ 30 → (s.part.stationState g n).probed = true →
        (∀ m, position < m → m < n → (s.part.stationState g m).probed = false) →
        exec (.settlingEnd g) s = .next (s.with (ready.updateControl g fun c => { c with scanPosition := some n }))) ∧
      ((∀ n, position < n → n ≤ 30 → (s.part.stationState g n).probed = false) →
        exec (.settlingEnd g) s = .next (s.with (((s.part.updateControl g fun c =>
          { c with state := .running, scanPosition := none }).setFlags g).updateEngine g fun _ => marked)))

/-- Once the step of the cycle is taken, a READY engine of a RUNNING segment starts the exchange of the head of the active
part if its reservation fits the time left, with the record, the queue, the exchange in flight and the frame as the spec says;
if it does not fit, the cycle is CLOSED. Every STORE clears dirty and rewritten. The token of a CANCEL whose record holds none
is free (log 30). That it waits for every part of an earlier teardown is the model's choice (log 25). -/
def Obligations.ExchangeStartServesHead : Prop :=
  ∀ (g : Segment) (elapsed : Nat) (s : State) (q : QueueEntry) (rest : List QueueEntry) (left : Nat) (r : Record)
    (k : ExchangeKind),
    let e := s.part.engine g
    let c := (s.part.control g).config
    s.part.resetLow = false → e.state = .ready → (s.part.control g).state = .running → e.markOwed = false →
    e.stepsDue = 0 → e.toTable = [] → (s.part.control g).stationTeardowns = 0 → (s.part.control g).recordTeardowns = [] →
    e.cycleClosed = false → e.active = q :: rest → e.cycleTimer = some left → elapsed ≤ left →
    s.part.record q.slot = some r →
    (r.kind = .input ∧ k = .fetch) ∨ (r.kind = .output ∧ k = .store) ∨
      (r.kind = .guarded ∧ ((r.guardPhase = .closed ∧ r.dirty = true ∧ k = .stage) ∨
        (r.guardPhase = .stage ∧ k = .stage) ∨ (r.guardPhase = .verify ∧ k = .verify) ∨
        (r.guardPhase = .commit ∧ k = .commit) ∨ (r.guardPhase = .cancel ∧ k = .cancel))) →
    (left - elapsed < c.reservation k r.length → exec (.exchangeStart g elapsed) s =
      .next (s.with (s.part.updateEngine g fun e => { e.elapse elapsed with cycleClosed := true }))) ∧
    (c.reservation k r.length ≤ left - elapsed →
      let next := if r.tokenCounter.getD 255 = 255 then 1 else r.tokenCounter.getD 255 + 1
      let r' : Record :=
        if r.kind = .output then { r with dirty := false, rewritten := false }
        else if r.kind = .guarded ∧ r.guardPhase = .closed then { r with
          tokenCounter := some next
          guardToken := some next
          staged := r.value
          dirty := false
          rewritten := false
          guardPhase := .stage }
        else r
      let guarded := k = .stage ∨ k = .verify ∨ k = .commit ∨ k = .cancel
      ∃ token : Nat, (∀ t, r'.guardToken = some t → token = t) ∧
        (r'.guardToken = none → 1 ≤ token ∧ token ≤ 255) ∧
        let payload : List Byte :=
          match k with
          | .fetch | .probe => []
          | .store => r.value.getD []
          | .stage => BitVec.ofNat 8 token :: r'.staged.getD []
          | .verify | .commit | .cancel => [BitVec.ofNat 8 token]
        let head : Byte :=
          match k with
          | .fetch => 0x02
          | .store => if r.sequenceBit then 0x13 else 0x03
          | .probe => 0x04
          | .stage => 0x25
          | .verify => 0x26
          | .commit => 0x27
          | .cancel => 0x28
        let body := [head, BitVec.ofNat 8 r.station, BitVec.ofNat 8 r.object, BitVec.ofNat 8 payload.length] ++ payload
        let frame := body ++ [(check body).extractLsb' 8 8, (check body).extractLsb' 0 8]
        exec (.exchangeStart g elapsed) s = .next (s.with ((({ s.part with
            freeDraws := if guarded ∧ r'.guardToken = none then s.part.freeDraws + 1 else s.part.freeDraws }.withRecord
          q.slot r').dequeue g q.slot).updateEngine g fun e => { e.elapse elapsed with
            exchange := some {
              kind := k
              slot := some q.slot
              station := r.station
              object := r.object
              length := r.length
              token := if guarded then some token else none
              owedCancel := decide (r.state = RecordState.retiring)
              reserveLeft := c.reservation k r.length }
            state := .request (c.bits (10 * frame.length))
            frame := frame })))

/-- With the active part empty and no PROBE taken in the cycle, the engine probes the first ABSENT or SILENT station from the
cursor on, if the PROBE fits, and closes the cycle if it does not. In SCANNING the PROBE of the station whose turn has come
starts, stations that have left ABSENT and SILENT being passed over; where none is left the scan ends, RUNNING, with the MARK of
cycle 0. Logs 17 and 25 are the model's choices here. -/
def Obligations.ProbesStart : Prop :=
  ∀ (g : Segment) (s : State), s.part.resetLow = false → (s.part.engine g).state = .ready →
    (s.part.control g).stationTeardowns = 0 → (s.part.control g).recordTeardowns = [] →
    let e := s.part.engine g
    let c := (s.part.control g).config
    let probing (e : Engine) (n : Nat) : Engine := { e with
      exchange := some ⟨.probe, none, n, 0, 0, none, false, c.bits (190 + c.replyWindow)⟩
      state := .request (c.bits 60)
      frame := withCheck [0x4, BitVec.ofNat 8 n, 0, 0] }
    (∀ elapsed left n, (s.part.control g).state = .running → e.markOwed = false → e.stepsDue = 0 → e.toTable = [] →
      e.cycleClosed = false → e.active = [] → e.probeTaken = false → e.cycleTimer = some left → elapsed ≤ left →
      1 ≤ e.probeCursor → e.probeCursor ≤ 30 → 1 ≤ n → n ≤ 30 → (s.part.stationState g n).probed = true →
      (∀ m, 1 ≤ m → m ≤ 30 → (s.part.stationState g m).probed = true →
        (n + 30 - e.probeCursor) % 30 ≤ (m + 30 - e.probeCursor) % 30) →
      (c.bits (190 + c.replyWindow) ≤ left - elapsed → exec (.probeStart g elapsed) s =
        .next (s.with (s.part.updateEngine g fun e => { probing (e.elapse elapsed) n with
          probeTaken := true
          probeCursor := if n = 30 then 1 else n + 1 }))) ∧
      (left - elapsed < c.bits (190 + c.replyWindow) → exec (.probeStart g elapsed) s =
        .next (s.with (s.part.updateEngine g fun e => { e.elapse elapsed with cycleClosed := true })))) ∧
    ∀ position, (s.part.control g).state = .scanning → (s.part.control g).scanPosition = some position →
      (∀ n, position ≤ n → n ≤ 30 → (s.part.stationState g n).probed = true →
        (∀ m, position ≤ m → m < n → (s.part.stationState g m).probed = false) →
        exec (.scanProbeStart g) s = .next (s.with ((s.part.updateControl g fun c =>
          { c with scanPosition := some n }).updateEngine g fun e => probing e n))) ∧
      ((∀ n, position ≤ n → n ≤ 30 → (s.part.stationState g n).probed = false) →
        exec (.scanProbeStart g) s = .next (s.with (((s.part.updateControl g fun c =>
          { c with state := .running, scanPosition := none }).setFlags g).updateEngine g fun e => { e with
            cycleNumber := 0
            cycleTimer := some (c.cyclePeriod * 1000)
            markOwed := false
            stepsDue := e.stepsDue + 1
            state := .request (c.bits 80)
            frame := markFrame 0 })))

/-! ### The exchange on the line -/

/-- The reservation of an exchange, in bit times, and what its end leaves: the outcome handed to the Station Directory and,
where a record was served, to the Table Controller; the line settles for the gap after a clean DATA, ACCEPT or IDENT, and
for the rest of the reservation otherwise. -/
def Obligations.ReservationAndSettling : Prop :=
  (∀ (w l : Nat), reservationBits w .fetch l = 140 + w + 10 * l ∧ reservationBits w .store l = 140 + w + 10 * l ∧
    reservationBits w .probe l = 190 + w ∧ reservationBits w .stage l = 150 + w + 10 * l ∧
    reservationBits w .verify l = 160 + w + 10 * l ∧ reservationBits w .commit l = 150 + w ∧
    reservationBits w .cancel l = 150 + w) ∧
  ∀ (e : Engine) (c : SegmentConfig) (x : Exchange) (result : ExchangeResult), e.exchange = some x →
    let clean := result = .accept ∨ (∃ bytes, result = .data bytes) ∨ ∃ i, result = .ident i
    let ended (settling : Nat) : Engine := { e with
      exchange := none
      state := .settle settling
      toTable := if x.slot = none then e.toTable else e.toTable ++ [⟨x, result, none⟩]
      toStations := e.toStations ++ [⟨x, result, none⟩] }
    (clean → e.complete c result = ended (c.bits 20)) ∧ (¬clean → e.complete c result = ended x.reserveLeft)

/-- The reply window runs out with TIMEOUT; a pause of more than 20 bit times after a character, and the reply's deadline,
end an incomplete reply with FRAME_ERROR. The pause is taken one CLK cycle after its 20 bit times (log 19). -/
def Obligations.TimersEndTheExchange : Prop :=
  ∀ (g : Segment) (s : State), s.part.resetLow = false →
    let e := s.part.engine g
    let c := (s.part.control g).config
    let ends (time : Nat) (result : ExchangeResult) : State :=
      s.with (s.part.updateEngine g fun _ => (e.elapse time).complete c result)
    (∀ left, e.state = .wait left → exec (.replyWindowExpiry g) s = .next (ends left .timeout)) ∧
    (∀ deadline next b bytes, e.state = .reply deadline next (b :: bytes) → c.bits 20 < deadline →
      exec (.characterGapExpiry g) s = .next (ends (c.bits 20 + 1) (.error .frameError))) ∧
    (∀ deadline next bytes, e.state = .reply deadline next bytes →
      exec (.replyDeadlineExpiry g) s = .next (ends deadline (.error .frameError)))

/-- A start bit within the window begins the reply, whose deadline stands the longest expected reply after the window's expiry.
SxRX is given by its level in each CLK cycle: to REPLY_START from the cycle before the window opens, to CHARACTER_RECEIVED from
the falling edge on, with the level before it (log 38). A start bit stands where it falls from 1 to 0 and is still 0 at the
bit's middle; a shorter pulse, and a line that stood at 0, change nothing. The eight data bits, least significant first, and
the stop bit are sampled at their middles. Each good character joins the reply; a bad stop bit ends it with FRAME_ERROR, a
header announcing too much payload with LONG_REPLY, and the last character with the judgement of the whole. The bounds on the
times are log 5. -/
def Obligations.ReplyIsReceived : Prop :=
  ∀ (g : Segment) (s : State) (x : Exchange), s.part.resetLow = false → (s.part.engine g).exchange = some x →
    let e := s.part.engine g
    let c := (s.part.control g).config
    let bit : Nat :=
      match c.bitRate with
      | .kbit250 => 80
      | .mbit1 => 20
      | .mbit2p5 => 8
    let falls (before : Bool) (level : Nat → Bool) : Prop := before = true ∧ ∀ t, t ≤ bit / 2 → level t = false
    let longest := x.kind.replyPayload x.length
    let become (e' : Engine) : State := s.with (s.part.updateEngine g fun _ => e')
    (∀ line : List Bool,
      let startsAt (t : Nat) : Prop := falls (line.getD t true) fun d => line.getD (t + 1 + d) true
      ((∀ t, ¬startsAt t) → exec (.replyStart g line) s = .next s) ∧
      ∀ window t, e.state = .wait window → startsAt t → (∀ u, u < t → ¬startsAt u) → t ≤ window →
        exec (.replyStart g line) s = .next (become
          { e.elapse t with state := .reply (window - t + c.bits (10 * (6 + longest))) (c.bits 10) [] })) ∧
    ∀ (elapsed : Nat) (before : Bool) (line : List Bool),
      let level (t : Nat) : Bool := line.getD t true
      let stop := level (9 * bit + bit / 2)
      let becomes (t : State) : Prop := exec (.characterReceived g elapsed before line) s = .next t
      (¬falls before level → becomes s) ∧
      ∀ deadline next bytes b, e.state = .reply deadline next bytes → elapsed ≤ deadline → elapsed ≤ next →
        falls before level → (∀ k, k < 8 → b.getLsbD k = level ((k + 1) * bit + bit / 2)) →
        let all := bytes ++ [b]
        let ends (result : ExchangeResult) : State := become ((e.elapse elapsed).complete c result)
        (stop = false → becomes (ends (.error .frameError))) ∧
        (stop = true → bytes.length = 3 ∧ longest < b.toNat → becomes (ends (.error .longReply))) ∧
        (stop = true → ¬(bytes.length = 3 ∧ longest < b.toNat) →
          ((∃ n, all[3]? = some n ∧ all.length = 6 + n.toNat) → becomes (ends (judge x all))) ∧
          ((∀ n, all[3]? = some n → all.length ≠ 6 + n.toNat) → becomes (become
            { e.elapse elapsed with state := .reply (deadline - elapsed) (c.bits 30) all })))

/-- A complete reply is judged by the tests in their order: check, station, kind and object, payload length. -/
def Obligations.ReplyIsJudged : Prop :=
  ∀ (x : Exchange) (kind station object n high low : Byte) (payload : List Byte), n.toNat = payload.length →
    let body := [kind, station, object, n] ++ payload
    let named := kind &&& 0x0F#8
    let expected : Option Nat :=
      if named = 0x9 ∧ x.kind = .fetch then some x.length
      else if named = 0x9 ∧ x.kind = .verify then some (1 + x.length)
      else if named = 0xA ∧ (x.kind = .store ∨ x.kind = .stage ∨ x.kind = .commit ∨ x.kind = .cancel) then some 0
      else if (named = 0xB ∨ named = 0xC) ∧ x.kind ≠ .probe then some 0
      else if named = 0xD ∧ x.kind = .probe then some 5
      else none
    let result := judge x (body ++ [high, low])
    (high.toNat * 256 + low.toNat ≠ (check body).toNat → result = .error .checkError) ∧
    (high.toNat * 256 + low.toNat = (check body).toNat →
      (station.toNat ≠ x.station → result = .error .wrongStation) ∧
      (station.toNat = x.station →
        (expected = none ∨ object.toNat ≠ x.object → result = .error .frameError) ∧
        ∀ k, expected = some k → object.toNat = x.object →
          (payload.length < k → result = .error .shortReply) ∧
          (k < payload.length → result = .error .longReply) ∧
          (payload.length = k →
            (named = 0x9 → result = .data payload) ∧ (named = 0xA → result = .accept) ∧
            (named = 0xB → result = .defer) ∧ (named = 0xC → result = .refuse) ∧
            (named = 0xD → ∀ b₃ b₂ b₁ b₀ cls, payload = [b₃, b₂, b₁, b₀, cls] →
              result = .ident ⟨b₃ ++ b₂ ++ b₁ ++ b₀, cls⟩))))

/-! ### Outcomes on records -/

/-- The good outcomes: DATA to a FETCH replaces the mirror, ACCEPT to a STORE toggles the sequence bit; age and error count 0,
condition OK, LIVE, and the reasons of the transition and of the notice mode. Dirty stays set, or becomes so where rewritten is
set: the reading of R48 and R107 together (log 11); so it does where a WRITE was taken during a STORE that this one repeats
after a lost ACCEPT: the reading of R8, R107 and R112 together (log 31). A reason raised joins the record's set, and its slot
the tail of its owner's list, once; under silent retire nothing is raised. An outcome that waited across the Station
Directory's part of a teardown is applied for the standing its station had then (log 15). -/
def Obligations.GoodOutcomesApply : Prop :=
  (∀ (r : Record) (raised : List Reason), ∃ set, r.withReasons raised = { r with reasons := set } ∧
    ∀ x, set.has x = true ↔ r.reasons.has x = true ∨ (r.silentRetire = false ∧ x ∈ raised)) ∧
  (∀ (s : Part) (n : Nat) (r : Record) (raised : List Reason), n < s.slots.length →
    let t := s.put n r raised
    let joins (p : Port) : Prop := p = r.owner ∧ r.silentRetire = false ∧ raised ≠ [] ∧ n ∉ (s.port p).attention
    t.record n = some (r.withReasons raised) ∧ (∀ m, m ≠ n → t.record m = s.record m) ∧
    (∀ p, (joins p → (t.port p).attention = (s.port p).attention ++ [n]) ∧
      (¬joins p → (t.port p).attention = (s.port p).attention)) ∧
    (∀ g, t.seg g = s.seg g) ∧ s.SameBus t ∧ s.PortsFlagged t (fun _ => False)) ∧
  ∀ (g : Segment) (s : State) (o : ExchangeOutcome) (waiting : List ExchangeOutcome) (n : Nat) (r : Record),
    s.part.resetLow = false → (s.part.engine g).toTable = o :: waiting →
    o.exchange.slot = some n → s.part.record n = some r → s.part.PresentFor o r →
    r.state.served = true →
    let u := s.part.updateEngine g fun e => { e with toTable := waiting }
    let state : List Reason :=
      if r.state = .pending then [.arrived] else if r.state = .stale then [.fresh] else []
    let good := { r with age := 0, errorCount := 0, condition := .ok, state := .live }
    (∀ payload, o.exchange.kind = .fetch → o.result = .data payload →
      exec (.outcomeTaken g) s = .next (s.with (u.put n { good with value := some payload }
        (state ++ if r.noticeMode = .stateValue ∧ r.value ≠ some payload then [.changed] else [])))) ∧
    (o.exchange.kind = .store → o.result = .accept →
      exec (.outcomeTaken g) s = .next (s.with (u.put n
        { good with sequenceBit := !r.sequenceBit, dirty := r.dirty || r.rewritten || r.missed, missed := false }
        (state ++ if r.noticeMode = .stateValue then [.applied] else []))))

/-- DEFER, TIMEOUT, REFUSE and the record errors on a served record: what each writes, which of them halts, and which carries
the record to the tail of the held part. For an OUTPUT record dirty is restored and the sequence bit kept, and a TIMEOUT or a
record error has a WRITE taken during the STORE remembered for the repeat's ACCEPT (log 31). That a segment which is neither
RUNNING nor HELD places nothing is the model's choice (log 16), and so is the standing of an outcome that waited across a
teardown (log 15). -/
def Obligations.FailuresApply : Prop :=
  ∀ (g : Segment) (s : State) (o : ExchangeOutcome) (waiting : List ExchangeOutcome) (n : Nat) (r : Record),
    s.part.resetLow = false → (s.part.engine g).toTable = o :: waiting →
    o.exchange.slot = some n → s.part.record n = some r → s.part.PresentFor o r →
    r.state.served = true → r.supersedes o.exchange = false →
    let u := s.part.updateEngine g fun e => { e with toTable := waiting }
    let r₀ := { r with dirty := r.dirty || decide (r.kind = RecordKind.output) }
    let r₁ := { r₀ with missed := r.missed || (decide (r.kind = RecordKind.output) && r.rewritten) }
    let carry (t : Part) : Part :=
      if (s.part.control r.segment).state = .running ∨ (s.part.control r.segment).state = .held then
        t.updateEngine r.segment fun e => { e with held := e.held ++ [n] }
      else t
    let becomes (t : Part) : Prop := exec (.outcomeTaken g) s = .next (s.with t)
    (o.result = .defer → becomes (carry (u.withRecord n { r₀ with condition := .deferred }))) ∧
    (o.result = .timeout → becomes (carry (u.withRecord n { r₁ with condition := .timeout }))) ∧
    (o.result = .refuse → o.exchange.kind ≠ .cancel →
      becomes (u.put n { r₀ with state := .halted, condition := .refused } [.halted])) ∧
    ∀ error, o.result = .error error →
      let name : Condition :=
        match error with
        | .checkError => .checkError
        | .frameError => .frameError
        | .wrongStation => .wrongStation
        | .shortReply => .shortReply
        | .longReply => .longReply
      (r.errorCount + 1 < r.retryBudget →
        becomes (carry (u.withRecord n { r₁ with errorCount := r.errorCount + 1, condition := name }))) ∧
      (r.retryBudget ≤ r.errorCount + 1 →
        becomes (u.put n { r₁ with errorCount := r.errorCount + 1, state := .halted, condition := .exhausted }
          [.halted]))

/-- The phase results of a guarded write: STAGE accepted, the VERIFY echo equal or not, COMMIT accepted, and the CANCEL that
RESTART sent answered with ACCEPT or REFUSE. A write that advances goes to the head of the active part (in a
segment that is RUNNING or HELD: log 16; the standing of an outcome that waited across a teardown: log 15). -/
def Obligations.PhaseResultsApply : Prop :=
  ∀ (g : Segment) (s : State) (o : ExchangeOutcome) (waiting : List ExchangeOutcome) (n : Nat) (r : Record),
    s.part.resetLow = false → (s.part.engine g).toTable = o :: waiting →
    o.exchange.slot = some n → s.part.record n = some r → s.part.PresentFor o r →
    r.state.served = true → r.guardToken = o.exchange.token →
    let u := s.part.updateEngine g fun e => { e with toTable := waiting }
    let proceed (t : Part) : Part :=
      if (s.part.control r.segment).state = .running ∨ (s.part.control r.segment).state = .held then
        t.updateEngine r.segment fun e => { e with active := ⟨n, false⟩ :: e.active }
      else t
    let becomes (t : Part) : Prop := exec (.outcomeTaken g) s = .next (s.with t)
    let closed := { r with guardPhase := .closed, guardToken := none, staged := none }
    (o.exchange.kind = .stage → r.guardPhase = .stage → o.result = .accept →
      becomes (proceed (u.withRecord n { r with guardPhase := .verify, errorCount := 0, condition := .ok }))) ∧
    (∀ token value payload, o.exchange.kind = .verify → r.guardPhase = .verify → r.guardToken = some token →
      r.staged = some value → o.result = .data payload →
      (payload = BitVec.ofNat 8 token :: value →
        becomes (proceed (u.withRecord n { r with guardPhase := .commit, errorCount := 0, condition := .ok }))) ∧
      (payload ≠ BitVec.ofNat 8 token :: value →
        becomes (u.put n { r with state := .halted, condition := .verifyMismatch } [.halted]))) ∧
    (o.exchange.kind = .commit → r.guardPhase = .commit → o.result = .accept →
      becomes (u.put n { closed with age := 0, errorCount := 0, condition := .ok, state := .live }
        ((if r.state = .pending then [.arrived] else if r.state = .stale then [.fresh] else []) ++
          if r.noticeMode = .stateValue then [.applied] else []))) ∧
    (o.exchange.kind = .cancel → r.guardPhase = .cancel →
      (o.result = .accept → becomes (proceed (u.withRecord n { closed with errorCount := 0, condition := .ok }))) ∧
      (o.result = .refuse → becomes (proceed (u.withRecord n { closed with errorCount := 0 }))))

/-- An outcome that a RESTART superseded changes nothing. One that finds its record HALTED, or its station not PRESENT, keeps
the record in step with the node and leaves its state, condition, error count and place (what it keeps of a lost ACCEPT is log
31); what an ACCEPT of a STORE leaves dirty at is the reading of R32, R48 and R115 together (log 11), and an outcome that
waited across a teardown keeps its standing (log 15). -/
def Obligations.OutcomesAsideApply : Prop :=
  ∀ (g : Segment) (s : State) (o : ExchangeOutcome) (waiting : List ExchangeOutcome) (n : Nat) (r : Record),
    s.part.resetLow = false → (s.part.engine g).toTable = o :: waiting →
    o.exchange.slot = some n → s.part.record n = some r → r.state.active = true →
    let u := s.part.updateEngine g fun e => { e with toTable := waiting }
    let becomes (t : Part) : Prop := exec (.outcomeTaken g) s = .next (s.with t)
    let x := o.exchange
    let mine (phase : GuardPhase) : Prop := r.guardPhase = phase ∧ r.guardToken = x.token
    let phase : Option GuardPhase :=
      match x.kind with
      | .stage => some .stage
      | .verify => some .verify
      | .commit => some .commit
      | .cancel => some .cancel
      | .fetch | .store | .probe => none
    let closed := { r with guardPhase := .closed, guardToken := none, staged := none }
    let applied : List Reason := if r.noticeMode = .stateValue then [.applied] else []
    (∀ ph, phase = some ph → ¬mine ph → becomes u) ∧
    (r.state = .halted ∨ ¬s.part.PresentFor o r →
      (∀ payload, x.kind = .fetch → o.result = .data payload →
        becomes (u.put n { r with value := some payload, age := 0 }
          (if r.noticeMode = .stateValue ∧ r.value ≠ some payload then [.changed] else []))) ∧
      (x.kind = .store → o.result = .accept →
        becomes (u.put n { r with
          sequenceBit := !r.sequenceBit
          age := 0
          dirty := r.rewritten || r.missed || (decide (r.state = RecordState.halted) && r.dirty)
          missed := false } applied)) ∧
      (x.kind = .store → (o.result = .timeout ∨ ∃ error, o.result = .error error) →
        becomes (u.withRecord n { r with
          dirty := true
          missed := r.missed || (decide (r.kind = RecordKind.output) && r.rewritten) })) ∧
      (x.kind = .store → o.result ≠ .accept → o.result ≠ .timeout → (∀ error, o.result ≠ .error error) →
        becomes (u.withRecord n { r with dirty := true })) ∧
      (x.kind = .stage → mine .stage → o.result = .accept →
        becomes (u.withRecord n { r with guardPhase := .verify })) ∧
      (∀ token value, x.kind = .verify → mine .verify → r.guardToken = some token → r.staged = some value →
        o.result = .data (BitVec.ofNat 8 token :: value) →
        becomes (u.withRecord n { r with guardPhase := .commit })) ∧
      (∀ token value payload, x.kind = .verify → mine .verify → r.guardToken = some token → r.staged = some value →
        o.result = .data payload → payload ≠ BitVec.ofNat 8 token :: value → becomes (u.withRecord n r)) ∧
      (x.kind = .commit → mine .commit → o.result = .accept →
        becomes (u.put n { closed with age := 0 } applied)) ∧
      (x.kind = .cancel → mine .cancel → o.result = .accept ∨ o.result = .refuse →
        becomes (u.withRecord n closed)) ∧
      (x.kind ≠ .store → (∀ payload, o.result ≠ .data payload) → o.result ≠ .accept →
        (x.kind = .cancel → o.result ≠ .refuse) → becomes (u.withRecord n r)))

/-- The outcome of a RETIRING record: silent retire frees its slot; an owed CANCEL ends its retirement; any other outcome is
discarded, and the record goes on to its owed CANCEL where it can be placed, and to RETIRED otherwise. An owed CANCEL stands in
the held part behind the owed CANCELs already there and ahead of the rest. Logs 15 and 37 are the model's choices here. -/
def Obligations.RetiringOutcomesApply : Prop :=
  (∀ (s : Part) (g : Segment) (n : Nat) (owed others : List Nat), (s.engine g).held = owed ++ others →
    (∀ m, m ∈ owed → ∃ r, s.record m = some r ∧ r.state = .retiring) →
    (∀ m r, m ∈ others → s.record m = some r → r.state ≠ .retiring) →
    s.placeOwedCancel g n = s.updateEngine g fun e => { e with held := owed ++ n :: others }) ∧
  ∀ (g : Segment) (s : State) (o : ExchangeOutcome) (waiting : List ExchangeOutcome) (n : Nat) (r : Record),
    s.part.resetLow = false → (s.part.engine g).toTable = o :: waiting →
    o.exchange.slot = some n → s.part.record n = some r → r.state = .retiring →
    let u := s.part.updateEngine g fun e => { e with toTable := waiting }
    let becomes (t : Part) : Prop := exec (.outcomeTaken g) s = .next (s.with t)
    let owed := r.kind = .guarded ∧ (r.guardPhase = .verify ∨ r.guardPhase = .commit ∨ r.guardPhase = .cancel ∨
      o.exchange.kind = .stage)
    let placeable := s.part.PresentFor o r ∧
      ((s.part.control r.segment).state = .running ∨ (s.part.control r.segment).state = .held)
    let unconfirmed := u.put n { r with state := .retired, condition := .cancelUnconfirmed } [.retired]
    (r.silentRetire = true → becomes (u.release n)) ∧
    (r.silentRetire = false → o.exchange.owedCancel = true →
      (o.result = .accept → becomes (u.put n { r with
        guardPhase := .closed
        guardToken := none
        staged := none
        state := .retired
        condition := .cancelled } [.retired])) ∧
      (o.result ≠ .accept → becomes unconfirmed)) ∧
    (r.silentRetire = false → o.exchange.owedCancel = false →
      (owed → placeable → becomes ((u.withRecord n { r with guardPhase := .cancel }).placeOwedCancel r.segment n)) ∧
      (owed → ¬placeable → becomes unconfirmed) ∧
      (¬owed → becomes (u.put n { r with state := .retired } [.retired])))

/-! ### Outcomes at the stations -/

/-- The outcome of a record exchange moves the silence counter of a PRESENT station; at the limit the station goes SILENT, or
ABSENT when no record is routed to it, and departs. A station in any other state is left alone. -/
def Obligations.StationOutcomesApply : Prop :=
  ∀ (g : Segment) (s : State) (o : ExchangeOutcome) (waiting : List ExchangeOutcome) (e : Station),
    let k := o.exchange.station
    s.part.resetLow = false → (s.part.engine g).toStations = o :: waiting → o.exchange.kind ≠ .probe →
    s.part.station g k = some e →
    let u := s.part.updateEngine g fun e => { e with toStations := waiting }
    let becomes (t : Part) : Prop := exec (.stationOutcome g) s = .next (s.with t)
    let limit := (s.part.control g).config.silenceLimit
    let counts (n : Nat) : Part := u.withStation g k { e with silence := n }
    (e.state ≠ .present → becomes u) ∧
    (e.state = .present →
      (o.result = .error .wrongStation → becomes u) ∧
      (o.result ≠ .timeout → o.result ≠ .error .wrongStation → becomes (counts 0)) ∧
      (o.result = .timeout → e.silence + 1 < limit → becomes (counts (e.silence + 1))) ∧
      (o.result = .timeout → limit ≤ e.silence + 1 →
        becomes (((u.withStation g k
          (if s.part.refCount g k = 0 then ⟨.absent, none, 0⟩ else ⟨.silent, e.identity, e.silence + 1⟩)).departRecords
            g k .stationSilent).setFlags g)))

/-- IDENT to a PROBE attaches an ABSENT station and reattaches a SILENT one: its identity is stored, every record's expected
identity is compared, sequence bits become 0, and STATION is raised on the records that stand, but for a SILENT station with
the identity it had. Any other result, and a station in another state, change nothing. That no lost ACCEPT is outstanding
after it is log 31. -/
def Obligations.ProbeOutcomesApply : Prop :=
  ∀ (g : Segment) (s : State) (o : ExchangeOutcome) (waiting : List ExchangeOutcome) (e : Station),
    let k := o.exchange.station
    s.part.resetLow = false → (s.part.engine g).toStations = o :: waiting → o.exchange.kind = .probe →
    s.part.station g k = some e →
    let u := s.part.updateEngine g fun e => { e with toStations := waiting }
    (((∀ i, o.result ≠ .ident i) ∨ e.state = .present ∨ e.state = .barred) →
      exec (.probeOutcome g) s = .next (s.with u)) ∧
    ∀ i, o.result = .ident i → e.state = .absent ∨ e.state = .silent →
      let notice := e.state = .absent ∨ e.identity ≠ some i
      let differs (r : Record) : Prop := ∃ want, r.expected = some want ∧ want ≠ i
      let here (r : Record) : Prop := r.segment = g ∧ r.station = k
      let raised (r : Record) : List Reason :=
        if r.state.served = true ∧ differs r then [.halted]
        else if r.state.active = true ∧ ¬differs r ∧ notice then [.station]
        else []
      ∃ t, exec (.probeOutcome g) s = .next (s.with t) ∧
        (∀ n r, s.part.record n = some r →
          let r' := { r with
            sequenceBit := if r.kind = .input then r.sequenceBit else false
            missed := if r.kind = .input then r.missed else false }
          (here r → r.state.active = true → differs r →
            t.record n = some (Record.withReasons { r' with
              state := .halted
              condition := .identityMismatch } (raised r))) ∧
          (here r → r.state.active = true → ¬differs r → t.record n = some (Record.withReasons r' (raised r))) ∧
          (¬here r ∨ r.state.active = false → t.record n = some r)) ∧
        (∀ n, s.part.record n = none → t.record n = none) ∧
        s.part.ListsGain t (fun _ r => here r ∧ raised r ≠ []) ∧
        (∃ gone : Nat → Bool,
          (∀ n, gone n = true ↔ ∃ r, t.record n = some r ∧ r.state = .halted ∧ r.segment = g) ∧
          t.engine g = (u.engine g).remove gone) ∧
        (∀ m, t.station g m = if m = k then some ⟨.present, some i, 0⟩ else s.part.station g m) ∧
        t.control g = s.part.control g ∧ s.part.SameOther t g ∧ s.part.SameBus t ∧ s.part.PortsFlagged t (· = g)

/-! ### The segment's life -/

/-- The settle timer's expiry begins the scan at the first ABSENT or SILENT station, or ends it at once with RUNNING and a MARK
where there is none. SxFLT asserted tears a powered segment down into FAULT, and is not watched otherwise; that its level is
followed outside those states and in reset, and falls back by SUPPLY_FAULT too, is the model's choice (log 8). Stations
are passed over at once (log 17), whether an earlier teardown's parts are taken or not (log 35); times are in CLK cycles
(log 4). -/
def Obligations.SettleTimerAndSupplyFault : Prop :=
  ∀ (g : Segment) (s : State),
    let c := s.part.control g
    let into (new : SegmentState) (position : Option Nat) := (s.part.updateControl g fun c =>
      { c with state := new, settleTimer := none, scanPosition := position }).setFlags g
    (∀ time, s.part.resetLow = false → c.state = .powering → c.settleTimer = some time →
      (∀ n, 1 ≤ n → n ≤ 30 → (s.part.stationState g n).probed = true →
        (∀ m, 1 ≤ m → m < n → (s.part.stationState g m).probed = false) →
        exec (.settleTimerExpiry g) s = .next (s.with (into .scanning (some n)))) ∧
      ((∀ n, 1 ≤ n → n ≤ 30 → (s.part.stationState g n).probed = false) → (s.part.engine g).state = .ready →
        exec (.settleTimerExpiry g) s = .next (s.with ((into .running none).updateEngine g fun e => { e with
          cycleNumber := 0
          cycleTimer := some (c.config.cyclePeriod * 1000)
          markOwed := false
          stepsDue := e.stepsDue + 1
          state := .request (c.config.bits 80)
          frame := markFrame 0 })))) ∧
    ∀ level, let u := s.part.updateControl g fun c => { c with faultIn := level }
      (level = false ∨ c.state = .off ∨ c.state = .fault → exec (.supplyFault g level) s = .next (s.with u)) ∧
      (level = true → c.state ≠ .off → c.state ≠ .fault →
        exec (.supplyFault g level) s = .next (s.with (u.tearDown g .fault)))

/-- The Station Directory's part of a teardown: after the outcomes handed over before it, every station that is not BARRED is
ABSENT, with its identity kept while records are routed to it, and every silence counter is 0. The slots that those outcomes
put on a list join it in ascending order, as one claim (log 36). An outcome that the Table Controller has not taken yet keeps
its station's standing (log 15); the order of this part and the other shows as log 33 says. -/
def Obligations.StationTeardownActs : Prop :=
  ∀ (g : Segment) (s : State) (left : Nat), s.part.resetLow = false → (s.part.control g).stationTeardowns = left + 1 →
    let waiting := (s.part.engine g).toStations
    let u := waiting.foldl (fun t o => t.stationTakes g o)
      ((s.part.updateControl g fun c => { c with stationTeardowns := left }).updateEngine g
        fun e => { e with toStations := [] })
    ∃ t, exec (.stationTeardown g) s = .next (s.with t) ∧
      (∀ k e, u.station g k = some e → t.station g k = some
        (if e.state = .barred then { e with silence := 0 }
          else ⟨.absent, if u.refCount g k = 0 then none else e.identity, 0⟩)) ∧
      (∀ n, t.record n = u.record n) ∧
      (∀ p, ∃ new : List Nat, (t.port p).attention = (s.part.port p).attention ++ new ∧ new.Pairwise (· < ·) ∧
        ∀ n, n ∈ new ↔ n ∈ (u.port p).attention ∧ n ∉ (s.part.port p).attention) ∧
      t.engine g = { u.engine g with toTable := (u.engine g).toTable.map fun o =>
        { o with standing := some (o.standing.getD (u.present g o.exchange.station)) } } ∧
      t.control g = u.control g ∧ u.SameOther t g ∧ u.SameBus t ∧
      u.PortsFlagged t fun h => h = g ∧ ∃ k e, u.station g k = some e ∧ (e.state = .present ∨ e.state = .silent)

/-- The Table Controller's part of a teardown: after the outcomes handed over before it, every record of the segment takes the
effect of its state, an OUTPUT record whose STORE was abandoned becomes dirty, and RETIRING records with silent retire are
freed. An outcome taken in it ends as it would have ended before the teardown, when the segment was RUNNING, but for the Due
Queue, which the teardown empties. The claims waiting are held first in, first out (log 7); the slots that the whole claim puts
on a list join it in ascending order, those of the waiting outcomes among them (log 36); what a RETIRED record keeps and the
order of the two parts are logs 34 and 33. -/
def Obligations.RecordTeardownActs : Prop :=
  (∀ (s : Part) (g : Segment) (o : ExchangeOutcome),
    (∀ n r, o.exchange.slot = some n → s.record n = some r → r.segment = g) →
    let t := s.takeOutcome o true
    let first := (s.updateControl g fun c => { c with state := .running }).takeOutcome o false
    (∀ n, t.record n = first.record n) ∧ (∀ p, t.port p = first.port p) ∧
    (∀ h, (t.seg h).stations = (first.seg h).stations ∧ t.control h = s.control h) ∧ first.SameBus t) ∧
  ∀ (g : Segment) (s : State) (abandoned : Option Exchange) (left : List (Option Exchange)),
    s.part.resetLow = false → (s.part.control g).recordTeardowns = abandoned :: left →
    let waiting := (s.part.engine g).toTable
    let u := waiting.foldl (fun t o => t.takeOutcome o true)
      ((s.part.updateControl g fun c => { c with recordTeardowns := left }).updateEngine g
        fun e => { e with toTable := [] })
    let freed (r : Record) : Prop := r.segment = g ∧ r.state = .retiring ∧ r.silentRetire = true
    let lost (t : Part) (k : Nat) : Prop :=
      t.refCount g k = 0 ∧ ∃ n r, u.record n = some r ∧ freed r ∧ r.station = k
    let open' (r : Record) : Prop := r.kind = .guarded ∧ r.guardPhase ≠ .closed
    let raised (r : Record) : List Reason :=
      if r.state.served = true ∧ open' r then [.halted]
      else if r.state = .live then [.stale]
      else if r.state = .retiring then [.retired]
      else []
    ∃ t, exec (.recordTeardown g) s = .next (s.with t) ∧
      (∀ n r, u.record n = some r → r.segment = g → ¬freed r →
        let r' := { r with dirty := r.dirty || decide (r.kind = .output ∧ r.state ≠ .retired ∧
          ∃ x, abandoned = some x ∧ x.kind = .store ∧ x.slot = some n) }
        t.record n = some (Record.withReasons
          (if r.state.served = true ∧ open' r then { r' with state := .halted, condition := .segmentDown }
            else if r.state = .live then { r' with state := .stale, condition := .segmentDown }
            else if r.state.served = true then { r' with condition := .segmentDown }
            else if r.state = .retiring then { r' with state := .retired, condition := .cancelUnconfirmed }
            else r') (raised r))) ∧
      (∀ n, (∃ r, u.record n = some r ∧ freed r) → t.record n = none) ∧
      (∀ n, (∀ r, u.record n = some r → r.segment ≠ g) → t.record n = u.record n) ∧
      (∀ p,
        let kept (n : Nat) : Prop := n ∈ (u.port p).attention ∧ ∀ r, u.record n = some r → freed r → r.owner ≠ p
        ∃ old new : List Nat, (t.port p).attention = old ++ new ∧
          (∃ stays : Nat → Bool, (∀ n, n ∈ (s.part.port p).attention → (stays n = true ↔ kept n)) ∧
            old = (s.part.port p).attention.filter stays) ∧
          new.Pairwise (· < ·) ∧
          ∀ n, n ∈ new ↔ n ∉ (s.part.port p).attention ∧ (kept n ∨ ∃ r, u.record n = some r ∧ r.owner = p ∧
            r.segment = g ∧ r.silentRetire = false ∧ raised r ≠ [])) ∧
      t.engine g = { u.engine g with active := [], held := [] } ∧ (∀ h, t.control h = u.control h) ∧
      (∀ k e, u.station g k = some e →
        (lost t k ∧ e.state = .silent → t.station g k = some ⟨.absent, none, 0⟩) ∧
        (lost t k ∧ e.state = .absent → t.station g k = some { e with identity := none }) ∧
        (¬lost t k ∨ e.state = .present ∨ e.state = .barred → t.station g k = some e)) ∧
      (∀ h, h ≠ g → t.seg h = u.seg h) ∧ u.SameBus t ∧
      u.PortsFlagged t fun h => h = g ∧ ∃ k e, lost t k ∧ u.station g k = some e ∧ e.state = .silent

/-! ### What every step keeps -/

/-- The pins, timers and engine of each segment go with its state. That no cycle step waits in OFF, POWERING or FAULT is the
model's reading (log 14). -/
def Obligations.SegmentsStayCoherent : Prop :=
  ∀ s t : State, s.part.SegmentsCoherent → step s = .next t → t.part.SegmentsCoherent

/-- Every record keeps its fields in their ranges and in step with each other. The Due Queues are sound as QueuesStaySound has
them. -/
def Obligations.RecordsStaySound : Prop :=
  ∀ s t : State, s.part.QueuesSound → s.part.RecordsSound → step s = .next t → t.part.RecordsSound

/-- Tags and output-class routes stay unique; the tables keep their sizes, and stations their bounds; no silence counter stands
above the limit in force, which rests on the waiting of SEGMENT_CONFIGURE (log 32) and of scan PROBEs (log 25). -/
def Obligations.KeysAndDirectoriesStaySound : Prop :=
  (∀ s t : State, s.part.KeysUnique → step s = .next t → t.part.KeysUnique) ∧
  (∀ s t : State, s.part.DirectoriesSound → step s = .next t → t.part.DirectoriesSound) ∧
  (∀ s t : State, s.part.SegmentsCoherent → s.part.DirectoriesSound → s.part.CountersSound → step s = .next t →
    t.part.CountersSound)

/-- A slot stands on a list at most once, only on its owner's, and with a reason pending. -/
def Obligations.ListsStaySound : Prop :=
  ∀ s t : State, s.part.ListsSound → step s = .next t → t.part.ListsSound

/-- The Due Queues hold each slot at most once, only records that may stand there, and none that is in flight. This
rests on the order in which waiting claims are taken (logs 7, 25). -/
def Obligations.QueuesStaySound : Prop :=
  ∀ s t : State, s.part.QueuesSound → step s = .next t → t.part.QueuesSound

/-- After reset all of this holds. -/
def Obligations.ResetIsSound : Prop :=
  let s := State.reset.part
  s.SegmentsCoherent ∧ s.RecordsSound ∧ s.KeysUnique ∧ s.DirectoriesSound ∧ s.CountersSound ∧ s.ListsSound ∧ s.QueuesSound
end

