-- ==== Sys2Proof/Laws/State.lean ====
section
/-! SUPPORT. What each update of the part leaves and what it changes, one lemma per field and update, so that no proof
unfolds a record update. -/

namespace Sys2Proof.Machine

/-! ### The machine -/

@[simp] theorem State.with_part (s : State) (t : Part) : (s.with t).part = t := rfl
@[simp] theorem State.with_pending (s : State) (t : Part) : (s.with t).pending = s.pending := rfl

/-- A claim taken outside reset. -/
theorem State.claim_awake (s : State) (f : Part → Part) (h : s.part.resetLow = false) :
    s.claim f = .next (s.with (f s.part)) := by
  simp [State.claim, State.with, h]

/-- A claim that reaches the part while RESETn is low is not taken. -/
theorem State.claim_inReset (s : State) (f : Part → Part) (h : s.part.resetLow = true) : s.claim f = .next s := by
  simp [State.claim, h]

/-- A claim always answers a next state with the same queue. -/
theorem State.claim_next (s : State) (f : Part → Part) :
    s.claim f = .next (s.with (if s.part.resetLow then s.part else f s.part)) := rfl

/-! ### withPort -/

@[simp] theorem Part.withPort_slots (s : Part) (p : Port) (u : PortUnit) : (s.withPort p u).slots = s.slots := by cases p <;> rfl
@[simp] theorem Part.withPort_resetLow (s : Part) (p : Port) (u : PortUnit) : (s.withPort p u).resetLow = s.resetLow := by cases p <;> rfl
@[simp] theorem Part.withPort_port1Address (s : Part) (p : Port) (u : PortUnit) : (s.withPort p u).port1Address = s.port1Address := by cases p <;> rfl
@[simp] theorem Part.withPort_port0Phase (s : Part) (p : Port) (u : PortUnit) : (s.withPort p u).port0Phase = s.port0Phase := by cases p <;> rfl
@[simp] theorem Part.withPort_port0Out (s : Part) (p : Port) (u : PortUnit) : (s.withPort p u).port0Out = s.port0Out := by cases p <;> rfl
@[simp] theorem Part.withPort_port1Acks (s : Part) (p : Port) (u : PortUnit) : (s.withPort p u).port1Acks = s.port1Acks := by cases p <;> rfl
@[simp] theorem Part.withPort_port1Out (s : Part) (p : Port) (u : PortUnit) : (s.withPort p u).port1Out = s.port1Out := by cases p <;> rfl
@[simp] theorem Part.withPort_freeDraws (s : Part) (p : Port) (u : PortUnit) : (s.withPort p u).freeDraws = s.freeDraws := by cases p <;> rfl
@[simp] theorem Part.withPort_record (s : Part) (p : Port) (u : PortUnit) (m : Nat) : (s.withPort p u).record m = s.record m := by
  cases p <;> rfl
@[simp] theorem Part.withPort_seg (s : Part) (p : Port) (u : PortUnit) (g : Segment) : (s.withPort p u).seg g = s.seg g := by
  cases p <;> cases g <;> rfl
@[simp] theorem Part.withPort_engine (s : Part) (p : Port) (u : PortUnit) (g : Segment) : (s.withPort p u).engine g = s.engine g := by
  cases p <;> cases g <;> rfl
@[simp] theorem Part.withPort_control (s : Part) (p : Port) (u : PortUnit) (g : Segment) : (s.withPort p u).control g = s.control g := by
  cases p <;> cases g <;> rfl

/-! ### updatePort -/

@[simp] theorem Part.updatePort_slots (s : Part) (p : Port) (f : PortUnit → PortUnit) : (s.updatePort p f).slots = s.slots := by cases p <;> rfl
@[simp] theorem Part.updatePort_resetLow (s : Part) (p : Port) (f : PortUnit → PortUnit) : (s.updatePort p f).resetLow = s.resetLow := by cases p <;> rfl
@[simp] theorem Part.updatePort_port1Address (s : Part) (p : Port) (f : PortUnit → PortUnit) : (s.updatePort p f).port1Address = s.port1Address := by cases p <;> rfl
@[simp] theorem Part.updatePort_port0Phase (s : Part) (p : Port) (f : PortUnit → PortUnit) : (s.updatePort p f).port0Phase = s.port0Phase := by cases p <;> rfl
@[simp] theorem Part.updatePort_port0Out (s : Part) (p : Port) (f : PortUnit → PortUnit) : (s.updatePort p f).port0Out = s.port0Out := by cases p <;> rfl
@[simp] theorem Part.updatePort_port1Acks (s : Part) (p : Port) (f : PortUnit → PortUnit) : (s.updatePort p f).port1Acks = s.port1Acks := by cases p <;> rfl
@[simp] theorem Part.updatePort_port1Out (s : Part) (p : Port) (f : PortUnit → PortUnit) : (s.updatePort p f).port1Out = s.port1Out := by cases p <;> rfl
@[simp] theorem Part.updatePort_freeDraws (s : Part) (p : Port) (f : PortUnit → PortUnit) : (s.updatePort p f).freeDraws = s.freeDraws := by cases p <;> rfl
@[simp] theorem Part.updatePort_record (s : Part) (p : Port) (f : PortUnit → PortUnit) (m : Nat) : (s.updatePort p f).record m = s.record m := by
  cases p <;> rfl
@[simp] theorem Part.updatePort_seg (s : Part) (p : Port) (f : PortUnit → PortUnit) (g : Segment) : (s.updatePort p f).seg g = s.seg g := by
  cases p <;> cases g <;> rfl
@[simp] theorem Part.updatePort_engine (s : Part) (p : Port) (f : PortUnit → PortUnit) (g : Segment) : (s.updatePort p f).engine g = s.engine g := by
  cases p <;> cases g <;> rfl
@[simp] theorem Part.updatePort_control (s : Part) (p : Port) (f : PortUnit → PortUnit) (g : Segment) : (s.updatePort p f).control g = s.control g := by
  cases p <;> cases g <;> rfl

/-! ### setFlags -/

@[simp] theorem Part.setFlags_slots (s : Part) (g : Segment) : (s.setFlags g).slots = s.slots := rfl
@[simp] theorem Part.setFlags_resetLow (s : Part) (g : Segment) : (s.setFlags g).resetLow = s.resetLow := rfl
@[simp] theorem Part.setFlags_port1Address (s : Part) (g : Segment) : (s.setFlags g).port1Address = s.port1Address := rfl
@[simp] theorem Part.setFlags_port0Phase (s : Part) (g : Segment) : (s.setFlags g).port0Phase = s.port0Phase := rfl
@[simp] theorem Part.setFlags_port0Out (s : Part) (g : Segment) : (s.setFlags g).port0Out = s.port0Out := rfl
@[simp] theorem Part.setFlags_port1Acks (s : Part) (g : Segment) : (s.setFlags g).port1Acks = s.port1Acks := rfl
@[simp] theorem Part.setFlags_port1Out (s : Part) (g : Segment) : (s.setFlags g).port1Out = s.port1Out := rfl
@[simp] theorem Part.setFlags_freeDraws (s : Part) (g : Segment) : (s.setFlags g).freeDraws = s.freeDraws := rfl
@[simp] theorem Part.setFlags_record (s : Part) (g : Segment) (m : Nat) : (s.setFlags g).record m = s.record m := by
  rfl
@[simp] theorem Part.setFlags_seg (s : Part) (h : Segment) (g : Segment) : (s.setFlags h).seg g = s.seg g := by
  cases h <;> cases g <;> rfl
@[simp] theorem Part.setFlags_engine (s : Part) (h : Segment) (g : Segment) : (s.setFlags h).engine g = s.engine g := by
  cases h <;> cases g <;> rfl
@[simp] theorem Part.setFlags_control (s : Part) (h : Segment) (g : Segment) : (s.setFlags h).control g = s.control g := by
  cases h <;> cases g <;> rfl

/-! ### withSeg -/

@[simp] theorem Part.withSeg_slots (s : Part) (g : Segment) (u : SegmentUnit) : (s.withSeg g u).slots = s.slots := by cases g <;> rfl
@[simp] theorem Part.withSeg_resetLow (s : Part) (g : Segment) (u : SegmentUnit) : (s.withSeg g u).resetLow = s.resetLow := by cases g <;> rfl
@[simp] theorem Part.withSeg_port1Address (s : Part) (g : Segment) (u : SegmentUnit) : (s.withSeg g u).port1Address = s.port1Address := by cases g <;> rfl
@[simp] theorem Part.withSeg_port0Phase (s : Part) (g : Segment) (u : SegmentUnit) : (s.withSeg g u).port0Phase = s.port0Phase := by cases g <;> rfl
@[simp] theorem Part.withSeg_port0Out (s : Part) (g : Segment) (u : SegmentUnit) : (s.withSeg g u).port0Out = s.port0Out := by cases g <;> rfl
@[simp] theorem Part.withSeg_port1Acks (s : Part) (g : Segment) (u : SegmentUnit) : (s.withSeg g u).port1Acks = s.port1Acks := by cases g <;> rfl
@[simp] theorem Part.withSeg_port1Out (s : Part) (g : Segment) (u : SegmentUnit) : (s.withSeg g u).port1Out = s.port1Out := by cases g <;> rfl
@[simp] theorem Part.withSeg_freeDraws (s : Part) (g : Segment) (u : SegmentUnit) : (s.withSeg g u).freeDraws = s.freeDraws := by cases g <;> rfl
@[simp] theorem Part.withSeg_record (s : Part) (g : Segment) (u : SegmentUnit) (m : Nat) : (s.withSeg g u).record m = s.record m := by
  cases g <;> rfl
@[simp] theorem Part.withSeg_port (s : Part) (g : Segment) (u : SegmentUnit) (q : Port) : (s.withSeg g u).port q = s.port q := by
  cases g <;> cases q <;> rfl

/-! ### updateEngine -/

@[simp] theorem Part.updateEngine_slots (s : Part) (g : Segment) (f : Engine → Engine) : (s.updateEngine g f).slots = s.slots := by cases g <;> rfl
@[simp] theorem Part.updateEngine_resetLow (s : Part) (g : Segment) (f : Engine → Engine) : (s.updateEngine g f).resetLow = s.resetLow := by cases g <;> rfl
@[simp] theorem Part.updateEngine_port1Address (s : Part) (g : Segment) (f : Engine → Engine) : (s.updateEngine g f).port1Address = s.port1Address := by cases g <;> rfl
@[simp] theorem Part.updateEngine_port0Phase (s : Part) (g : Segment) (f : Engine → Engine) : (s.updateEngine g f).port0Phase = s.port0Phase := by cases g <;> rfl
@[simp] theorem Part.updateEngine_port0Out (s : Part) (g : Segment) (f : Engine → Engine) : (s.updateEngine g f).port0Out = s.port0Out := by cases g <;> rfl
@[simp] theorem Part.updateEngine_port1Acks (s : Part) (g : Segment) (f : Engine → Engine) : (s.updateEngine g f).port1Acks = s.port1Acks := by cases g <;> rfl
@[simp] theorem Part.updateEngine_port1Out (s : Part) (g : Segment) (f : Engine → Engine) : (s.updateEngine g f).port1Out = s.port1Out := by cases g <;> rfl
@[simp] theorem Part.updateEngine_freeDraws (s : Part) (g : Segment) (f : Engine → Engine) : (s.updateEngine g f).freeDraws = s.freeDraws := by cases g <;> rfl
@[simp] theorem Part.updateEngine_record (s : Part) (g : Segment) (f : Engine → Engine) (m : Nat) : (s.updateEngine g f).record m = s.record m := by
  cases g <;> rfl
@[simp] theorem Part.updateEngine_port (s : Part) (g : Segment) (f : Engine → Engine) (q : Port) : (s.updateEngine g f).port q = s.port q := by
  cases g <;> cases q <;> rfl

/-! ### updateControl -/

@[simp] theorem Part.updateControl_slots (s : Part) (g : Segment) (f : Control → Control) : (s.updateControl g f).slots = s.slots := by cases g <;> rfl
@[simp] theorem Part.updateControl_resetLow (s : Part) (g : Segment) (f : Control → Control) : (s.updateControl g f).resetLow = s.resetLow := by cases g <;> rfl
@[simp] theorem Part.updateControl_port1Address (s : Part) (g : Segment) (f : Control → Control) : (s.updateControl g f).port1Address = s.port1Address := by cases g <;> rfl
@[simp] theorem Part.updateControl_port0Phase (s : Part) (g : Segment) (f : Control → Control) : (s.updateControl g f).port0Phase = s.port0Phase := by cases g <;> rfl
@[simp] theorem Part.updateControl_port0Out (s : Part) (g : Segment) (f : Control → Control) : (s.updateControl g f).port0Out = s.port0Out := by cases g <;> rfl
@[simp] theorem Part.updateControl_port1Acks (s : Part) (g : Segment) (f : Control → Control) : (s.updateControl g f).port1Acks = s.port1Acks := by cases g <;> rfl
@[simp] theorem Part.updateControl_port1Out (s : Part) (g : Segment) (f : Control → Control) : (s.updateControl g f).port1Out = s.port1Out := by cases g <;> rfl
@[simp] theorem Part.updateControl_freeDraws (s : Part) (g : Segment) (f : Control → Control) : (s.updateControl g f).freeDraws = s.freeDraws := by cases g <;> rfl
@[simp] theorem Part.updateControl_record (s : Part) (g : Segment) (f : Control → Control) (m : Nat) : (s.updateControl g f).record m = s.record m := by
  cases g <;> rfl
@[simp] theorem Part.updateControl_port (s : Part) (g : Segment) (f : Control → Control) (q : Port) : (s.updateControl g f).port q = s.port q := by
  cases g <;> cases q <;> rfl

/-! ### withRecord -/

@[simp] theorem Part.withRecord_resetLow (s : Part) (n : Nat) (r : Record) : (s.withRecord n r).resetLow = s.resetLow := rfl
@[simp] theorem Part.withRecord_port1Address (s : Part) (n : Nat) (r : Record) : (s.withRecord n r).port1Address = s.port1Address := rfl
@[simp] theorem Part.withRecord_port0Phase (s : Part) (n : Nat) (r : Record) : (s.withRecord n r).port0Phase = s.port0Phase := rfl
@[simp] theorem Part.withRecord_port0Out (s : Part) (n : Nat) (r : Record) : (s.withRecord n r).port0Out = s.port0Out := rfl
@[simp] theorem Part.withRecord_port1Acks (s : Part) (n : Nat) (r : Record) : (s.withRecord n r).port1Acks = s.port1Acks := rfl
@[simp] theorem Part.withRecord_port1Out (s : Part) (n : Nat) (r : Record) : (s.withRecord n r).port1Out = s.port1Out := rfl
@[simp] theorem Part.withRecord_freeDraws (s : Part) (n : Nat) (r : Record) : (s.withRecord n r).freeDraws = s.freeDraws := rfl
@[simp] theorem Part.withRecord_port (s : Part) (n : Nat) (r : Record) (q : Port) : (s.withRecord n r).port q = s.port q := by
  cases q <;> rfl
@[simp] theorem Part.withRecord_seg (s : Part) (n : Nat) (r : Record) (g : Segment) : (s.withRecord n r).seg g = s.seg g := by
  cases g <;> rfl
@[simp] theorem Part.withRecord_engine (s : Part) (n : Nat) (r : Record) (g : Segment) : (s.withRecord n r).engine g = s.engine g := by
  cases g <;> rfl
@[simp] theorem Part.withRecord_control (s : Part) (n : Nat) (r : Record) (g : Segment) : (s.withRecord n r).control g = s.control g := by
  cases g <;> rfl

/-! ### freeSlot -/

@[simp] theorem Part.freeSlot_resetLow (s : Part) (n : Nat) : (s.freeSlot n).resetLow = s.resetLow := rfl
@[simp] theorem Part.freeSlot_port1Address (s : Part) (n : Nat) : (s.freeSlot n).port1Address = s.port1Address := rfl
@[simp] theorem Part.freeSlot_port0Phase (s : Part) (n : Nat) : (s.freeSlot n).port0Phase = s.port0Phase := rfl
@[simp] theorem Part.freeSlot_port0Out (s : Part) (n : Nat) : (s.freeSlot n).port0Out = s.port0Out := rfl
@[simp] theorem Part.freeSlot_port1Acks (s : Part) (n : Nat) : (s.freeSlot n).port1Acks = s.port1Acks := rfl
@[simp] theorem Part.freeSlot_port1Out (s : Part) (n : Nat) : (s.freeSlot n).port1Out = s.port1Out := rfl
@[simp] theorem Part.freeSlot_freeDraws (s : Part) (n : Nat) : (s.freeSlot n).freeDraws = s.freeDraws := rfl
@[simp] theorem Part.freeSlot_port (s : Part) (n : Nat) (q : Port) : (s.freeSlot n).port q = s.port q := by
  cases q <;> rfl
@[simp] theorem Part.freeSlot_seg (s : Part) (n : Nat) (g : Segment) : (s.freeSlot n).seg g = s.seg g := by
  cases g <;> rfl
@[simp] theorem Part.freeSlot_engine (s : Part) (n : Nat) (g : Segment) : (s.freeSlot n).engine g = s.engine g := by
  cases g <;> rfl
@[simp] theorem Part.freeSlot_control (s : Part) (n : Nat) (g : Segment) : (s.freeSlot n).control g = s.control g := by
  cases g <;> rfl

/-! ### What the updates change -/

@[simp] theorem Part.withPort_port (s : Part) (p : Port) (u : PortUnit) : (s.withPort p u).port p = u := by
  cases p <;> rfl
theorem Part.withPort_port_ne (s : Part) (p q : Port) (u : PortUnit) (h : q ≠ p) :
    (s.withPort p u).port q = s.port q := by
  cases p <;> cases q <;> first | rfl | exact absurd rfl h
@[simp] theorem Part.updatePort_port (s : Part) (p : Port) (f : PortUnit → PortUnit) :
    (s.updatePort p f).port p = f (s.port p) := by
  cases p <;> rfl
theorem Part.updatePort_port_ne (s : Part) (p q : Port) (f : PortUnit → PortUnit) (h : q ≠ p) :
    (s.updatePort p f).port q = s.port q := by
  cases p <;> cases q <;> first | rfl | exact absurd rfl h
@[simp] theorem Part.setFlags_port (s : Part) (g : Segment) (q : Port) :
    (s.setFlags g).port q = (s.port q).withFlag g true := by
  cases q <;> rfl
@[simp] theorem Part.withSeg_seg (s : Part) (g : Segment) (u : SegmentUnit) : (s.withSeg g u).seg g = u := by
  cases g <;> rfl
theorem Part.withSeg_seg_ne (s : Part) (g k : Segment) (u : SegmentUnit) (h : k ≠ g) :
    (s.withSeg g u).seg k = s.seg k := by
  cases g <;> cases k <;> first | rfl | exact absurd rfl h
@[simp] theorem Part.updateEngine_engine (s : Part) (g : Segment) (f : Engine → Engine) :
    (s.updateEngine g f).engine g = f (s.engine g) := by
  cases g <;> rfl
theorem Part.updateEngine_seg_ne (s : Part) (g k : Segment) (f : Engine → Engine) (h : k ≠ g) :
    (s.updateEngine g f).seg k = s.seg k := by
  cases g <;> cases k <;> first | rfl | exact absurd rfl h
theorem Part.updateEngine_engine_ne (s : Part) (g k : Segment) (f : Engine → Engine) (h : k ≠ g) :
    (s.updateEngine g f).engine k = s.engine k := by
  cases g <;> cases k <;> first | rfl | exact absurd rfl h
@[simp] theorem Part.updateEngine_control (s : Part) (g k : Segment) (f : Engine → Engine) :
    (s.updateEngine g f).control k = s.control k := by
  cases g <;> cases k <;> rfl
@[simp] theorem Part.updateEngine_stations (s : Part) (g k : Segment) (f : Engine → Engine) :
    ((s.updateEngine g f).seg k).stations = (s.seg k).stations := by
  cases g <;> cases k <;> rfl
@[simp] theorem Part.updateControl_control (s : Part) (g : Segment) (f : Control → Control) :
    (s.updateControl g f).control g = f (s.control g) := by
  cases g <;> rfl
theorem Part.updateControl_seg_ne (s : Part) (g k : Segment) (f : Control → Control) (h : k ≠ g) :
    (s.updateControl g f).seg k = s.seg k := by
  cases g <;> cases k <;> first | rfl | exact absurd rfl h
@[simp] theorem Part.updateControl_engine (s : Part) (g k : Segment) (f : Control → Control) :
    (s.updateControl g f).engine k = s.engine k := by
  cases g <;> cases k <;> rfl
@[simp] theorem Part.updateControl_stations (s : Part) (g k : Segment) (f : Control → Control) :
    ((s.updateControl g f).seg k).stations = (s.seg k).stations := by
  cases g <;> cases k <;> rfl
@[simp] theorem Part.withRecord_slots (s : Part) (n : Nat) (r : Record) :
    (s.withRecord n r).slots = s.slots.set n (some r) := rfl
@[simp] theorem Part.freeSlot_slots (s : Part) (n : Nat) : (s.freeSlot n).slots = s.slots.set n none := rfl

/-- A record is in the table only at an index of the table. -/
theorem Part.record_lt {s : Part} {n : Nat} {r : Record} (h : s.record n = some r) : n < s.slots.length := by
  by_contra hn
  simp [Part.record, List.getElem?_eq_none (Nat.not_lt.mp hn)] at h

theorem Part.withRecord_record (s : Part) (n : Nat) (r : Record) (h : n < s.slots.length) :
    (s.withRecord n r).record n = some r := by
  simp [Part.record, Part.withRecord, h]

theorem Part.withRecord_record_ne (s : Part) (n m : Nat) (r : Record) (h : m ≠ n) :
    (s.withRecord n r).record m = s.record m := by
  simp [Part.record, Part.withRecord, List.getElem?_set_ne (Ne.symm h)]

theorem Part.freeSlot_record (s : Part) (n : Nat) : (s.freeSlot n).record n = none := by
  by_cases h : n < s.slots.length <;> simp [Part.record, Part.freeSlot, h]

theorem Part.freeSlot_record_ne (s : Part) (n m : Nat) (h : m ≠ n) : (s.freeSlot n).record m = s.record m := by
  simp [Part.record, Part.freeSlot, List.getElem?_set_ne (Ne.symm h)]

end Sys2Proof.Machine
end

