-- ==== Sys2Proof/WellFormed.lean ====
section
/-! DEFINITION. Which terms of Instr are commands. The one check that the types do not make: UNKNOWN_OPERATION stands
for an operation byte that is none of the three operations (R194). -/

namespace Sys2Proof

/-- R194: the operation bytes of SUBMIT, COLLECT and POLL. -/
def knownOperation (operation : Byte) : Bool :=
  operation == 0xA1#8 || operation == 0xA2#8 || operation == 0xA3#8

/-- Every term is a command but an UNKNOWN_OPERATION with a known operation byte. -/
def Instr.wellFormed : Instr → Bool
  | .unknownOperation operation _ => !knownOperation operation
  | .lookup _ | .scanFrom _ | .read _ | .insert _ | .amend _ | .write _ | .resume _ | .restart _
  | .retire _ | .purge _ | .stationQuery _ | .stationBar _ | .stationUnbar _ | .segmentConfigure _
  | .segmentCommandOn _ | .segmentCommandOff _ | .segmentCommandHold _ | .segmentCommandRelease _
  | .segmentStatus _ | .takeAttention _ | .portConfigure _ | .submit _ | .collect _ | .poll _
  | .cycleTimerExpiry _ | .cycleStep _ | .markEnd _ | .settlingEnd _ | .scanProbeStart _ | .requestEnd _
  | .replyWindowExpiry _ | .characterGapExpiry _ | .replyDeadlineExpiry _ | .outcomeTaken _
  | .stationOutcome _ | .probeOutcome _ | .settleTimerExpiry _ | .stationTeardown _ | .recordTeardown _
  | .writeTransfer _ _ _ | .readTransfer _ _ | .exchangeStart _ _ | .probeStart _ _ | .replyStart _ _
  | .characterReceived _ _ _ _ | .supplyFault _ _ | .reset | .powerOn | .resetRelease _ => true

end Sys2Proof
end

