-- ==== Sys2Proof/Laws/Ops.lean ====
section
/-! SUPPORT. What each shared operation does, said once: the lemmas that proofs cite in place of its definition. -/

namespace Sys2Proof.Machine

/-! ### Steps and requests -/

/-- The command at the front of the queue is run on the queue's rest. -/
theorem step_front (s : State) (c : Instr) (rest : List Instr) (h : s.pending = c :: rest) :
    step s = exec c { s with pending := rest } := by
  simp [step, h]

/-- With no command waiting the part idles. -/
theorem step_idle (s : State) (h : s.pending = []) : step s = .next s := by
  simp [step, h]

/-- A request that stands SUBMITTED is taken by its owner, and the answer goes into the response buffer. -/
theorem Part.takeRequest_standing (s : Part) (p : Port) (c : RequestCode) (f : RequestFrame)
    (owner : RequestFrame → Part × Answer) (h : s.Standing p c f) :
    s.takeRequest p c owner = (owner f).1.answer p f (owner f).2.status (owner f).2.results := by
  obtain ⟨-, hb, hc⟩ := h
  simp only [Part.takeRequest, hb, hc, if_true]
  rfl

/-- Where no request of this code stands, nothing is taken. -/
theorem Part.takeRequest_absent (s : Part) (p : Port) (c : RequestCode) (owner : RequestFrame → Part × Answer)
    (h : ∀ f, (s.port p).buffer = .submitted f → f.code ≠ c.code) : s.takeRequest p c owner = s := by
  unfold Part.takeRequest
  split
  · rename_i f hb
    simp [h f hb]
  all_goals rfl

/-- A claim that takes a standing request. -/
theorem State.claim_request (s : State) (p : Port) (c : RequestCode) (f : RequestFrame)
    (owner : Part → RequestFrame → Part × Answer) (h : s.part.Standing p c f) :
    (s.claim fun s => s.takeRequest p c (owner s)) =
      .next (s.with ((owner s.part f).1.answer p f (owner s.part f).2.status (owner s.part f).2.results)) := by
  rw [State.claim_awake _ _ h.1, Part.takeRequest_standing _ _ _ _ _ h]

@[simp] theorem Part.answer_record (s : Part) (p : Port) (f : RequestFrame) (a : Status) (l : List Byte) (m : Nat) :
    (s.answer p f a l).record m = s.record m := by
  simp [Part.answer, Part.withBuffer]

@[simp] theorem Part.answer_seg (s : Part) (p : Port) (f : RequestFrame) (a : Status) (l : List Byte) (g : Segment) :
    (s.answer p f a l).seg g = s.seg g := by
  simp [Part.answer, Part.withBuffer]

@[simp] theorem Part.answer_attention (s : Part) (p q : Port) (f : RequestFrame) (a : Status) (l : List Byte) :
    ((s.answer p f a l).port q).attention = (s.port q).attention := by
  cases p <;> cases q <;> rfl

/-! ### Characters on SxRX (R56) -/

/-- R56: what a start bit is. -/
theorem BitRate.startBit_iff (rate : BitRate) (before : Bool) (line : List Bool) :
    rate.startBit before line = true ↔ before = true ∧ ∀ t, t ≤ rate.bit / 2 → line.getD t true = false := by
  simp [BitRate.startBit, BitRate.middle, levelAt]

/-- R56: where a start bit stands on a line. -/
theorem BitRate.startBit_at (rate : BitRate) (line : List Bool) (t : Nat) :
    rate.startBit (line.getD t true) (line.drop (t + 1)) = true ↔
      line.getD t true = true ∧ ∀ d, d ≤ rate.bit / 2 → line.getD (t + 1 + d) true = false := by
  simp [BitRate.startBit_iff]

/-- R56: the first start bit on the line is a start bit, with none before it. -/
theorem BitRate.firstStart_iff (rate : BitRate) (line : List Bool) (t : Nat) :
    rate.firstStart line = some t ↔
      rate.startBit (line.getD t true) (line.drop (t + 1)) = true ∧
        ∀ u, u < t → rate.startBit (line.getD u true) (line.drop (u + 1)) = false := by
  induction line generalizing t with
  | nil =>
    refine ⟨fun h => by simp [BitRate.firstStart] at h, fun h => ?_⟩
    have low := ((rate.startBit_iff _ _).1 h.1).2 0 (Nat.zero_le _)
    simp at low
  | cons before line ih =>
    unfold BitRate.firstStart
    split_ifs with h
    · constructor
      · rintro ⟨⟩
        exact ⟨h, fun u hu => absurd hu (Nat.not_lt_zero u)⟩
      · rintro ⟨-, hu⟩
        rcases t with - | t
        · rfl
        · exact absurd (hu 0 t.succ_pos) (by simpa using h)
    · rcases t with - | t
      · simpa using h
      · have step : (∀ u, u < t + 1 →
            rate.startBit ((before :: line).getD u true) ((before :: line).drop (u + 1)) = false) ↔
            ∀ u, u < t → rate.startBit (line.getD u true) (line.drop (u + 1)) = false := by
          refine ⟨fun a u hu => a (u + 1) (Nat.succ_lt_succ hu), fun a u hu => ?_⟩
          rcases u with - | u
          · simpa using h
          · exact a u (Nat.lt_of_succ_lt_succ hu)
        rw [step]
        simpa using ih t

/-- R55, R56: the bits of the byte received are the samples of the data bits. -/
theorem BitRate.byte_getLsbD (rate : BitRate) (line : List Bool) (k : Nat) (h : k < 8) :
    (rate.byte line).getLsbD k = line.getD ((k + 1) * rate.bit + rate.bit / 2) true := by
  simp [BitRate.byte, BitRate.sample, BitRate.middle, levelAt, h]

/-- R56: the byte received is the one whose bits are the samples. -/
theorem BitRate.byte_eq (rate : BitRate) (line : List Bool) (b : Byte)
    (h : ∀ k, k < 8 → b.getLsbD k = line.getD ((k + 1) * rate.bit + rate.bit / 2) true) : rate.byte line = b :=
  BitVec.eq_of_getLsbD_eq fun k hk => (rate.byte_getLsbD line k hk).trans (h k hk).symm

@[simp] theorem Engine.listen_start (e : Engine) (c : SegmentConfig) (line : List Bool) (t : Nat)
    (h : c.bitRate.firstStart line = some t) : e.listen c line = e.startReply c t := by simp [Engine.listen, h]

@[simp] theorem Engine.listen_none (e : Engine) (c : SegmentConfig) (line : List Bool)
    (h : c.bitRate.firstStart line = none) : e.listen c line = e := by simp [Engine.listen, h]

@[simp] theorem Engine.sampleCharacter_start (e : Engine) (c : SegmentConfig) (elapsed : Nat) (before : Bool)
    (line : List Bool) (h : c.bitRate.startBit before line = true) :
    e.sampleCharacter c elapsed before line = e.receive c elapsed (c.bitRate.byte line) (c.bitRate.stopBit line) :=
  if_pos h

@[simp] theorem Engine.sampleCharacter_pulse (e : Engine) (c : SegmentConfig) (elapsed : Nat) (before : Bool)
    (line : List Bool) (h : c.bitRate.startBit before line = false) : e.sampleCharacter c elapsed before line = e := by
  simp [Engine.sampleCharacter, h]

/-! ### Port 0 -/

@[simp] theorem Part.onPort0_fall {α : Type} (s : Part) (f : α → Part → Part) : s.onPort0 .fall f = s.select := rfl

@[simp] theorem Part.onPort0_rest {α : Type} (s : Part) (a : α) (f : α → Part → Part)
    (h : s.port0Phase = .begun) : s.onPort0 (.rest a) f = f a s := by simp [Part.onPort0, Part.afterFall, h]

@[simp] theorem Part.onPort0_rise {α : Type} (s : Part) (f : α → Part → Part) : s.onPort0 .rise f = s.deselect := rfl

/-- R185, R194: nothing is taken without a falling edge of its own, or after the one operation of a transaction. -/
@[simp] theorem Part.onPort0_abandoned {α : Type} (s : Part) (a : α) (f : α → Part → Part)
    (h : s.port0Phase ≠ .begun) : s.onPort0 (.rest a) f = s := by simp [Part.onPort0, Part.afterFall, h]

/-- A whole transaction is its falling edge, what is clocked, and its rising edge. -/
@[simp] theorem Part.onPort0_whole {α : Type} (s : Part) (a : α) (f : α → Part → Part) :
    s.onPort0 (.whole a) f = (f a s.select).deselect := rfl

/-- R193: the byte sent as bits is received, most significant bit first. -/
theorem byteOf_busBits (b : Byte) : byteOf (busBits b) = b :=
  BitVec.eq_of_getLsbD_eq fun i hi => by
    interval_cases i <;> simp [byteOf, busBits]

/-- R193, R197: the bytes sent as bits are received, most significant bit first. -/
theorem bytesOf_busBits (b : Byte) (bits : List Bool) : bytesOf (busBits b ++ bits) = b :: bytesOf bits :=
  congrArg (· :: bytesOf bits) (byteOf_busBits b)

/-- R197: the same on Port 1, with the acknowledge bit after each byte. -/
theorem ackedBytes_busBits (b : Byte) (ack : Bool) (bits : List Bool) :
    ackedBytes (busBits b ++ ack :: bits) = (b, ack) :: ackedBytes bits :=
  congrArg (fun byte => (byte, ack) :: ackedBytes bits) (byteOf_busBits b)

/-- R194: fewer than eight bits are no byte. -/
theorem bytesOf_short (bits : List Bool) (h : bits.length < 8) : bytesOf bits = [] := by
  unfold bytesOf
  split
  · simp only [List.length_cons] at h
    omega
  · rfl

/-- R194: what a transaction's first byte chooses is a command. -/
theorem port0Operation_wellFormed (operation : Byte) (bytes : List Byte) :
    (port0Operation operation bytes).wellFormed = true := by
  unfold port0Operation
  split_ifs <;> simp_all [Instr.wellFormed, knownOperation]

/-! ### Reasons, lists and many records -/

/-- Raising reasons changes no field of a record but its reason set. -/
theorem Record.withReasons_eq (r : Record) (l : List Reason) :
    r.withReasons l = { r with reasons := (r.withReasons l).reasons } := by
  unfold Record.withReasons
  split <;> rfl

@[simp] theorem Record.withReasons_nil (r : Record) : r.withReasons [] = r := by
  simp [Record.withReasons]

/-- A list keeps its entries when a slot joins it, and gains at most that slot. -/
theorem mem_joinList (l : List Nat) (n m : Nat) : m ∈ joinList l n ↔ m ∈ l ∨ m = n := by
  unfold joinList
  split
  · rename_i h
    simp only [List.contains_iff_mem] at h
    constructor
    · exact Or.inl
    · rintro (h' | rfl) <;> assumption
  · simp

/-- R174: a list without duplicates stays so when a slot joins it. -/
theorem nodup_joinList (l : List Nat) (n : Nat) (h : l.Nodup) : (joinList l n).Nodup := by
  unfold joinList
  split
  · exact h
  · rename_i hn
    simp only [List.contains_iff_mem] at hn
    rw [List.nodup_append]
    refine ⟨h, List.nodup_singleton n, ?_⟩
    rintro a ha b hb rfl
    simp only [List.mem_singleton] at hb
    exact hn (hb ▸ ha)

/-- The record put back has the raised reasons. -/
theorem Part.put_record (s : Part) (n : Nat) (r : Record) (l : List Reason) (h : n < s.slots.length) :
    (s.put n r l).record n = some (r.withReasons l) := by
  unfold Part.put
  simp only
  split <;> simp [Part.withRecord_record _ _ _ h]

/-- The other records are left alone. -/
theorem Part.put_record_ne (s : Part) (n m : Nat) (r : Record) (l : List Reason) (h : m ≠ n) :
    (s.put n r l).record m = s.record m := by
  unfold Part.put
  simp only
  split <;> simp [Part.withRecord_record_ne _ _ _ _ h]

@[simp] theorem Part.put_seg (s : Part) (n : Nat) (r : Record) (l : List Reason) (g : Segment) :
    (s.put n r l).seg g = s.seg g := by
  unfold Part.put
  simp only
  split <;> simp

/-- R174, R175: the port of the record's owner has the slot on its list, once, where a reason is raised. -/
theorem Part.put_port (s : Part) (n : Nat) (r : Record) (l : List Reason) (p : Port) :
    (s.put n r l).port p =
      if r.notifies l = true ∧ p = r.owner then { s.port p with attention := joinList (s.port p).attention n }
      else s.port p := by
  unfold Part.put
  cases p <;> cases h : r.owner <;> cases k : r.notifies l <;> simp [Part.updatePort, Part.port, Part.withPort, Part.withRecord]

@[simp] theorem Part.put_nil (s : Part) (n : Nat) (r : Record) : s.put n r [] = s.withRecord n r := by
  simp [Part.put, Record.notifies]

/-- R26: what a claim on many records makes of each of them. -/
theorem Part.forRecords_record (s : Part) (test : Nat → Record → Bool) (f : Nat → Record → Verdict) (n : Nat) :
    (s.forRecords test f).record n =
      (s.record n).map fun r => if test n r then (f n r).1.withReasons (f n r).2 else r := by
  simp only [Part.record, Part.forRecords, List.getElem?_mapIdx]
  rcases s.slots[n]? with _ | o
  · rfl
  · rcases o with _ | r <;> rfl

@[simp] theorem Part.forRecords_seg (s : Part) (test : Nat → Record → Bool) (f : Nat → Record → Verdict) (g : Segment) :
    (s.forRecords test f).seg g = s.seg g := by
  cases g <;> rfl

@[simp] theorem Part.forRecords_engine (s : Part) (test : Nat → Record → Bool) (f : Nat → Record → Verdict)
    (g : Segment) : (s.forRecords test f).engine g = s.engine g := by
  cases g <;> rfl

@[simp] theorem Part.forRecords_control (s : Part) (test : Nat → Record → Bool) (f : Nat → Record → Verdict)
    (g : Segment) : (s.forRecords test f).control g = s.control g := by
  cases g <;> rfl

@[simp] theorem Part.forRecords_resetLow (s : Part) (test : Nat → Record → Bool) (f : Nat → Record → Verdict) :
    (s.forRecords test f).resetLow = s.resetLow := rfl

/-- The slots that meet a test. -/
theorem Part.mem_slotsWhere (s : Part) (test : Nat → Record → Bool) (n : Nat) :
    n ∈ s.slotsWhere test ↔ ∃ r, s.record n = some r ∧ test n r = true := by
  simp only [Part.slotsWhere, List.mem_filter, List.mem_range, Option.any_eq_true]
  constructor
  · rintro ⟨-, r, hr, ht⟩
    exact ⟨r, hr, ht⟩
  · rintro ⟨r, hr, ht⟩
    exact ⟨Part.record_lt hr, r, hr, ht⟩

/-- The slots that meet a test are listed once each. -/
theorem Part.nodup_slotsWhere (s : Part) (test : Nat → Record → Bool) : (s.slotsWhere test).Nodup :=
  List.Nodup.filter _ List.nodup_range

/-- They are listed in ascending order. -/
theorem Part.sorted_slotsWhere (s : Part) (test : Nat → Record → Bool) : (s.slotsWhere test).Pairwise (· < ·) :=
  List.Pairwise.filter _ List.pairwise_lt_range

/-- What a claim on many records does to a port: its list alone can grow. -/
theorem Part.forRecords_port (s : Part) (test : Nat → Record → Bool) (f : Nat → Record → Verdict) (p : Port) :
    (s.forRecords test f).port p = { s.port p with
      attention := (s.port p).attention ++ s.slotsWhere fun n r =>
        test n r && (f n r).1.owner == p && (f n r).1.notifies (f n r).2 && !(s.port p).attention.contains n } := by
  cases p <;> rfl

/-- R175: the lists gain the slots on which the verdicts raise a reason. -/
theorem Part.forRecords_listsGain (s : Part) (test : Nat → Record → Bool) (f : Nat → Record → Verdict)
    (raised : Nat → Record → Prop) (owner : ∀ n r, (f n r).1.owner = r.owner)
    (silent : ∀ n r, (f n r).1.silentRetire = r.silentRetire)
    (reasons : ∀ n r, s.record n = some r → r.silentRetire = false →
      ((test n r = true ∧ (f n r).2 ≠ []) ↔ raised n r)) : s.ListsGain (s.forRecords test f) raised := by
  intro p
  refine ⟨_, by rw [Part.forRecords_port], s.sorted_slotsWhere _, fun n => ?_⟩
  rw [Part.mem_slotsWhere]
  simp only [Bool.and_eq_true, beq_iff_eq, Record.notifies, owner, silent, Bool.not_eq_true', List.isEmpty_eq_false_iff,
    List.contains_eq_mem, decide_eq_false_iff_not]
  constructor
  · rintro ⟨r, h1, ⟨⟨h2, h3⟩, h4, h5⟩, h6⟩
    exact ⟨h6, r, h1, h3, h4, (reasons n r h1 h4).mp ⟨h2, h5⟩⟩
  · rintro ⟨h6, r, h1, h3, h4, h5⟩
    obtain ⟨h7, h8⟩ := (reasons n r h1 h4).mpr h5
    exact ⟨r, h1, ⟨⟨h7, h3⟩, h4, h8⟩, h6⟩

/-- A claim on many records changes no buffer, flag or enable. -/
theorem Part.forRecords_flagged (s : Part) (test : Nat → Record → Bool) (f : Nat → Record → Verdict) :
    s.PortsFlagged (s.forRecords test f) (fun _ => False) := by
  intro p
  rw [Part.forRecords_port]
  refine ⟨rfl, rfl, rfl, fun g => ?_⟩
  cases g <;> simp [PortUnit.flag]

@[simp] theorem Part.inSlotOrder_record (s t : Part) (n : Nat) : (s.inSlotOrder t).record n = t.record n := rfl

@[simp] theorem Part.inSlotOrder_seg (s t : Part) (g : Segment) : (s.inSlotOrder t).seg g = t.seg g := by
  cases g <;> rfl

@[simp] theorem Part.inSlotOrder_resetLow (s t : Part) : (s.inSlotOrder t).resetLow = t.resetLow := rfl

/-- What ordering the slots of a claim does to a port: its list alone can change. -/
theorem Part.inSlotOrder_port (s t : Part) (p : Port) :
    (s.inSlotOrder t).port p = { t.port p with
      attention := (s.port p).attention.filter (t.port p).attention.contains ++ t.slotsWhere fun n _ =>
        (t.port p).attention.contains n && !(s.port p).attention.contains n } := by
  cases p <;> rfl

/-- R175: the slots that a claim put on a list stand in ascending order behind those that stood there and stay, where every
slot that the claim put there holds a record. -/
theorem Part.inSlotOrder_gains (s t : Part) (p : Port)
    (held : ∀ n, n ∈ (t.port p).attention → n ∉ (s.port p).attention → ∃ r, t.record n = some r) :
    ∃ new : List Nat, ((s.inSlotOrder t).port p).attention =
        (s.port p).attention.filter (t.port p).attention.contains ++ new ∧ new.Pairwise (· < ·) ∧
      ∀ n, n ∈ new ↔ n ∈ (t.port p).attention ∧ n ∉ (s.port p).attention := by
  refine ⟨_, by rw [Part.inSlotOrder_port], t.sorted_slotsWhere _, fun n => ?_⟩
  rw [Part.mem_slotsWhere]
  simp only [Bool.and_eq_true, Bool.not_eq_true', List.contains_eq_mem, decide_eq_true_eq, decide_eq_false_iff_not]
  exact ⟨fun ⟨_, _, h⟩ => h, fun h => (held n h.1 h.2).imp fun _ hr => ⟨hr, h⟩⟩

/-- Ordering the slots of a claim takes none off a list and puts none on it, where every slot that the claim put there holds a
record. -/
theorem Part.mem_inSlotOrder (s t : Part) (p : Port)
    (held : ∀ n, n ∈ (t.port p).attention → n ∉ (s.port p).attention → ∃ r, t.record n = some r) (n : Nat) :
    n ∈ ((s.inSlotOrder t).port p).attention ↔ n ∈ (t.port p).attention := by
  obtain ⟨new, eq, -, mem⟩ := Part.inSlotOrder_gains s t p held
  rw [eq, List.mem_append, mem]
  simp only [List.mem_filter, List.contains_eq_mem, decide_eq_true_eq]
  tauto

/-- R181: the segment's flags are set on both ports, and nothing else of the ports changes. -/
theorem Part.setFlags_flagged (s : Part) (g : Segment) : s.PortsFlagged (s.setFlags g) (· = g) := by
  intro p
  cases p <;> cases g <;> refine ⟨rfl, rfl, rfl, fun h => ?_⟩ <;> cases h <;>
    simp [Part.setFlags, Part.port, PortUnit.withFlag, PortUnit.flag]

/-- Two changes of the ports one after the other. -/
theorem Part.PortsFlagged.trans {s t u : Part} {a b : Segment → Prop} (h : s.PortsFlagged t a)
    (k : t.PortsFlagged u b) : s.PortsFlagged u fun g => a g ∨ b g := by
  intro p
  obtain ⟨h1, h2, h3, h4⟩ := h p
  obtain ⟨k1, k2, k3, k4⟩ := k p
  exact ⟨k1.trans h1, k2.trans h2, k3.trans h3, fun g => by rw [k4 g, h4 g, or_assoc]⟩

@[simp] theorem Part.setFlags_attention (s : Part) (g : Segment) (p : Port) :
    ((s.setFlags g).port p).attention = (s.port p).attention := by
  cases p <;> cases g <;> rfl

/-! ### The Due Queue -/

/-- R87: a removal takes out the entries that meet the test, and no others. -/
theorem Engine.queued_remove (e : Engine) (test : Nat → Bool) (n : Nat) :
    (e.remove test).queued n = (e.queued n && !test n) := by
  rw [Bool.eq_iff_iff]
  simp only [Engine.queued, Engine.remove, Bool.or_eq_true, List.any_eq_true, List.mem_filter, Bool.not_eq_true',
    beq_iff_eq, List.contains_iff_mem, Bool.and_eq_true]
  constructor
  · rintro (⟨q, ⟨hq, ht⟩, rfl⟩ | ⟨hn, ht⟩)
    · exact ⟨Or.inl ⟨q, hq, rfl⟩, ht⟩
    · exact ⟨Or.inr hn, ht⟩
  · rintro ⟨⟨q, hq, rfl⟩ | hn, ht⟩
    · exact Or.inl ⟨q, ⟨hq, ht⟩, rfl⟩
    · exact Or.inr ⟨hn, ht⟩

@[simp] theorem Engine.inFlightKind_remove (e : Engine) (test : Nat → Bool) (n : Nat) :
    (e.remove test).inFlightKind n = e.inFlightKind n := rfl

/-- R86: where the owed CANCELs lead the held part, a new one stands behind them and ahead of the rest. -/
theorem Part.owedCancels_split (s : Part) (owed others : List Nat) (h : ∀ m ∈ owed, s.retiringSlot m = true)
    (k : ∀ m ∈ others, s.retiringSlot m = false) :
    (owed ++ others).takeWhile s.retiringSlot = owed ∧ (owed ++ others).dropWhile s.retiringSlot = others := by
  induction owed with
  | nil =>
    rcases others with _ | ⟨m, rest⟩
    · exact ⟨rfl, rfl⟩
    · have := k m List.mem_cons_self
      simp [this]
  | cons m rest ih =>
    have hm := h m List.mem_cons_self
    have := ih fun x hx => h x (List.mem_cons_of_mem _ hx)
    simp [hm, this.1, this.2]

/-! ### Release -/

@[simp] theorem Part.withStation_record (s : Part) (g : Segment) (k : Nat) (e : Station) (m : Nat) :
    (s.withStation g k e).record m = s.record m := by
  unfold Part.withStation
  split
  · rfl
  · simp

@[simp] theorem Part.withStation_engine (s : Part) (g h : Segment) (k : Nat) (e : Station) :
    (s.withStation g k e).engine h = s.engine h := by
  unfold Part.withStation
  split
  · rfl
  · cases g <;> cases h <;> rfl

@[simp] theorem Part.withStation_control (s : Part) (g h : Segment) (k : Nat) (e : Station) :
    (s.withStation g k e).control h = s.control h := by
  unfold Part.withStation
  split
  · rfl
  · cases g <;> cases h <;> rfl

@[simp] theorem Part.withStation_port (s : Part) (g : Segment) (k : Nat) (e : Station) (p : Port) :
    (s.withStation g k e).port p = s.port p := by
  unfold Part.withStation
  split
  · rfl
  · simp

/-- The entry of a station that has one, after it is replaced. -/
theorem Part.withStation_station (s : Part) (g : Segment) (k m : Nat) (e e' : Station) (h : s.station g k = some e') :
    (s.withStation g k e).station g m = if m = k then some e else s.station g m := by
  unfold Part.station at h
  split at h
  · simp at h
  · rename_i hk
    obtain ⟨hlt, -⟩ := List.getElem?_eq_some_iff.mp h
    unfold Part.withStation Part.station
    rw [if_neg hk]
    by_cases hm : m = 0
    · have : m ≠ k := fun e => hk (e ▸ hm)
      rw [if_pos hm, if_pos hm, if_neg this]
    · rw [if_neg hm, if_neg hm, Part.withSeg_seg]
      by_cases hmk : m = k
      · subst hmk
        simp [hlt]
      · have : k - 1 ≠ m - 1 := by omega
        rw [if_neg hmk, List.getElem?_set_ne this]

@[simp] theorem Part.forgetUnused_record (s : Part) (g : Segment) (k m : Nat) :
    (s.forgetUnused g k).record m = s.record m := by
  unfold Part.forgetUnused
  split
  · split
    · split <;> simp
    · rfl
  · rfl

@[simp] theorem Part.forgetUnused_engine (s : Part) (g h : Segment) (k : Nat) :
    (s.forgetUnused g k).engine h = s.engine h := by
  unfold Part.forgetUnused
  split
  · split
    · split <;> simp
    · rfl
  · rfl

@[simp] theorem Part.dequeue_record (s : Part) (g : Segment) (n m : Nat) : (s.dequeue g n).record m = s.record m := by
  simp [Part.dequeue]

/-- R19: the released slot is FREE and every other slot is as it was. -/
theorem Part.release_record (s : Part) (n m : Nat) :
    (s.release n).record m = if m = n then none else s.record m := by
  unfold Part.release
  split
  · rename_i h
    split
    · rename_i e
      rw [e, h]
    · rfl
  · simp only [Part.forgetUnused_record]
    split
    · rename_i e
      rw [e, Part.freeSlot_record]
    · rename_i e
      rw [Part.freeSlot_record_ne _ _ _ e]
      simp

end Sys2Proof.Machine
end

