-- ==== Sys2Proof/Laws/PerInstr.lean ====
section
/-! SUPPORT. Statements made for every command, one lemma for each constructor. -/

namespace Sys2Proof

/-- R194: the one term that is no command is an UNKNOWN_OPERATION that names a known operation. -/
def Laws.WellFormed.Statement (i : Instr) : Prop :=
  i.wellFormed = false ↔ ∃ operation clocked, i = .unknownOperation operation clocked ∧ knownOperation operation = true

/-- Every other command. -/
theorem Laws.WellFormed.of_command {i : Instr} (h : i.wellFormed = true) (other : ∀ o c, i ≠ .unknownOperation o c) :
    Statement i :=
  ⟨fun bad => absurd (h.symm.trans bad) Bool.noConfusion, fun ⟨o, c, e, _⟩ => absurd e (other o c)⟩

theorem Laws.WellFormed.lookup (port : Port) : Statement (.lookup port) := 
  of_command rfl fun _ _ => Instr.noConfusion
theorem Laws.WellFormed.scanFrom (port : Port) : Statement (.scanFrom port) := 
  of_command rfl fun _ _ => Instr.noConfusion
theorem Laws.WellFormed.read (port : Port) : Statement (.read port) := 
  of_command rfl fun _ _ => Instr.noConfusion
theorem Laws.WellFormed.insert (port : Port) : Statement (.insert port) := 
  of_command rfl fun _ _ => Instr.noConfusion
theorem Laws.WellFormed.amend (port : Port) : Statement (.amend port) := 
  of_command rfl fun _ _ => Instr.noConfusion
theorem Laws.WellFormed.write (port : Port) : Statement (.write port) := 
  of_command rfl fun _ _ => Instr.noConfusion
theorem Laws.WellFormed.resume (port : Port) : Statement (.resume port) := 
  of_command rfl fun _ _ => Instr.noConfusion
theorem Laws.WellFormed.restart (port : Port) : Statement (.restart port) := 
  of_command rfl fun _ _ => Instr.noConfusion
theorem Laws.WellFormed.retire (port : Port) : Statement (.retire port) := 
  of_command rfl fun _ _ => Instr.noConfusion
theorem Laws.WellFormed.purge (port : Port) : Statement (.purge port) := 
  of_command rfl fun _ _ => Instr.noConfusion
theorem Laws.WellFormed.stationQuery (port : Port) : Statement (.stationQuery port) := 
  of_command rfl fun _ _ => Instr.noConfusion
theorem Laws.WellFormed.stationBar (port : Port) : Statement (.stationBar port) := 
  of_command rfl fun _ _ => Instr.noConfusion
theorem Laws.WellFormed.stationUnbar (port : Port) : Statement (.stationUnbar port) := 
  of_command rfl fun _ _ => Instr.noConfusion
theorem Laws.WellFormed.segmentConfigure (port : Port) : Statement (.segmentConfigure port) := 
  of_command rfl fun _ _ => Instr.noConfusion
theorem Laws.WellFormed.segmentCommandOn (port : Port) : Statement (.segmentCommandOn port) := 
  of_command rfl fun _ _ => Instr.noConfusion
theorem Laws.WellFormed.segmentCommandOff (port : Port) : Statement (.segmentCommandOff port) := 
  of_command rfl fun _ _ => Instr.noConfusion
theorem Laws.WellFormed.segmentCommandHold (port : Port) : Statement (.segmentCommandHold port) := 
  of_command rfl fun _ _ => Instr.noConfusion
theorem Laws.WellFormed.segmentCommandRelease (port : Port) : Statement (.segmentCommandRelease port) := 
  of_command rfl fun _ _ => Instr.noConfusion
theorem Laws.WellFormed.segmentStatus (port : Port) : Statement (.segmentStatus port) := 
  of_command rfl fun _ _ => Instr.noConfusion
theorem Laws.WellFormed.takeAttention (port : Port) : Statement (.takeAttention port) := 
  of_command rfl fun _ _ => Instr.noConfusion
theorem Laws.WellFormed.portConfigure (port : Port) : Statement (.portConfigure port) := 
  of_command rfl fun _ _ => Instr.noConfusion
theorem Laws.WellFormed.submit (bytes : Spi (List Byte)) : Statement (.submit bytes) := 
  of_command rfl fun _ _ => Instr.noConfusion
theorem Laws.WellFormed.collect (clocked : Spi Nat) : Statement (.collect clocked) := 
  of_command rfl fun _ _ => Instr.noConfusion
theorem Laws.WellFormed.poll (clocked : Spi Nat) : Statement (.poll clocked) := 
  of_command rfl fun _ _ => Instr.noConfusion
theorem Laws.WellFormed.unknownOperation (operation : Byte) (clocked : Spi Nat) : Statement (.unknownOperation operation clocked) := by
  simp [Laws.WellFormed.Statement, Instr.wellFormed]
theorem Laws.WellFormed.writeTransfer (address : BitVec 7) (bytes : List Byte) (ending : TransferEnd) : Statement (.writeTransfer address bytes ending) := 
  of_command rfl fun _ _ => Instr.noConfusion
theorem Laws.WellFormed.readTransfer (address : BitVec 7) (clocked : Nat) : Statement (.readTransfer address clocked) := 
  of_command rfl fun _ _ => Instr.noConfusion
theorem Laws.WellFormed.cycleTimerExpiry (segment : Segment) : Statement (.cycleTimerExpiry segment) := 
  of_command rfl fun _ _ => Instr.noConfusion
theorem Laws.WellFormed.cycleStep (segment : Segment) : Statement (.cycleStep segment) := 
  of_command rfl fun _ _ => Instr.noConfusion
theorem Laws.WellFormed.markEnd (segment : Segment) : Statement (.markEnd segment) := 
  of_command rfl fun _ _ => Instr.noConfusion
theorem Laws.WellFormed.settlingEnd (segment : Segment) : Statement (.settlingEnd segment) := 
  of_command rfl fun _ _ => Instr.noConfusion
theorem Laws.WellFormed.exchangeStart (segment : Segment) (elapsed : Nat) : Statement (.exchangeStart segment elapsed) := 
  of_command rfl fun _ _ => Instr.noConfusion
theorem Laws.WellFormed.probeStart (segment : Segment) (elapsed : Nat) : Statement (.probeStart segment elapsed) := 
  of_command rfl fun _ _ => Instr.noConfusion
theorem Laws.WellFormed.scanProbeStart (segment : Segment) : Statement (.scanProbeStart segment) := 
  of_command rfl fun _ _ => Instr.noConfusion
theorem Laws.WellFormed.requestEnd (segment : Segment) : Statement (.requestEnd segment) := 
  of_command rfl fun _ _ => Instr.noConfusion
theorem Laws.WellFormed.replyWindowExpiry (segment : Segment) : Statement (.replyWindowExpiry segment) := 
  of_command rfl fun _ _ => Instr.noConfusion
theorem Laws.WellFormed.replyStart (segment : Segment) (line : List Bool) :
    Statement (.replyStart segment line) :=
  of_command rfl fun _ _ => Instr.noConfusion
theorem Laws.WellFormed.characterReceived (segment : Segment) (elapsed : Nat) (before : Bool) (line : List Bool) :
    Statement (.characterReceived segment elapsed before line) :=
  of_command rfl fun _ _ => Instr.noConfusion
theorem Laws.WellFormed.characterGapExpiry (segment : Segment) : Statement (.characterGapExpiry segment) := 
  of_command rfl fun _ _ => Instr.noConfusion
theorem Laws.WellFormed.replyDeadlineExpiry (segment : Segment) : Statement (.replyDeadlineExpiry segment) := 
  of_command rfl fun _ _ => Instr.noConfusion
theorem Laws.WellFormed.outcomeTaken (segment : Segment) : Statement (.outcomeTaken segment) := 
  of_command rfl fun _ _ => Instr.noConfusion
theorem Laws.WellFormed.stationOutcome (segment : Segment) : Statement (.stationOutcome segment) := 
  of_command rfl fun _ _ => Instr.noConfusion
theorem Laws.WellFormed.probeOutcome (segment : Segment) : Statement (.probeOutcome segment) := 
  of_command rfl fun _ _ => Instr.noConfusion
theorem Laws.WellFormed.settleTimerExpiry (segment : Segment) : Statement (.settleTimerExpiry segment) := 
  of_command rfl fun _ _ => Instr.noConfusion
theorem Laws.WellFormed.supplyFault (segment : Segment) (level : Bool) : Statement (.supplyFault segment level) := 
  of_command rfl fun _ _ => Instr.noConfusion
theorem Laws.WellFormed.stationTeardown (segment : Segment) : Statement (.stationTeardown segment) := 
  of_command rfl fun _ _ => Instr.noConfusion
theorem Laws.WellFormed.recordTeardown (segment : Segment) : Statement (.recordTeardown segment) := 
  of_command rfl fun _ _ => Instr.noConfusion
theorem Laws.WellFormed.reset : Statement .reset := 
  of_command rfl fun _ _ => Instr.noConfusion
theorem Laws.WellFormed.powerOn : Statement .powerOn := 
  of_command rfl fun _ _ => Instr.noConfusion
theorem Laws.WellFormed.resetRelease (adr : Bool) : Statement (.resetRelease adr) := 
  of_command rfl fun _ _ => Instr.noConfusion

end Sys2Proof
end

