-- ==== Sys2Proof/Laws/Requests.lean ====
section
/-! SUPPORT. What a request finds: the tag it names, the owner's checks, and the first entry of the Tag Directory. -/

namespace Sys2Proof.Machine

/-- A record is one of the table's entries. -/
theorem Part.record_some_iff (s : Part) (n : Nat) (r : Record) : s.record n = some r ↔ s.slots[n]? = some (some r) := by
  simp [Part.record, Option.join_eq_some_iff]

/-- R20: a tag is bound to the slot whose record has it. -/
theorem Part.slotOfTag_binds {s : Part} {tag n : Nat} {r : Record} (hk : s.KeysUnique) (h : s.Binds tag n r) :
    s.slotOfTag tag = some n := by
  obtain ⟨-, hr, rfl⟩ := h
  have hget := (s.record_some_iff n r).mp hr
  rw [Part.slotOfTag, List.findIdx?_eq_some_iff_getElem]
  obtain ⟨hn, he⟩ := List.getElem?_eq_some_iff.mp hget
  refine ⟨hn, by simp [he], fun m hm => ?_⟩
  have hm' : m < s.slots.length := Nat.lt_trans hm hn
  rcases hq : s.slots[m] with _ | q
  · simp
  · have hqr : s.record m = some q := by
      rw [Part.record_some_iff, List.getElem?_eq_getElem hm', hq]
    have := (hk m n q r hqr hr (Nat.ne_of_lt hm)).1
    simpa using this

/-- R20: an unbound tag is found nowhere. -/
theorem Part.slotOfTag_unbound {s : Part} {tag : Nat} (h : s.Unbound tag) : s.slotOfTag tag = none := by
  rw [Part.slotOfTag, List.findIdx?_eq_none_iff]
  intro o ho
  rcases o with _ | r
  · simp
  · obtain ⟨n, hn, he⟩ := List.getElem_of_mem ho
    have := h n r (by rw [Part.record_some_iff, List.getElem?_eq_getElem hn, he])
    simpa using this

/-- A slot found for a tag holds a record with that tag. -/
theorem Part.slotOfTag_some {s : Part} {tag n : Nat} (h : s.slotOfTag tag = some n) :
    ∃ r, s.record n = some r ∧ r.tag = tag := by
  rw [Part.slotOfTag, List.findIdx?_eq_some_iff_getElem] at h
  obtain ⟨hn, ht, -⟩ := h
  rcases hq : s.slots[n] with _ | r
  · simp [hq] at ht
  · refine ⟨r, by rw [Part.record_some_iff, List.getElem?_eq_getElem hn, hq], ?_⟩
    simpa [hq] using ht

/-- A tag for which no slot is found is unbound. -/
theorem Part.unbound_of_slotOfTag {s : Part} {tag : Nat} (h : s.slotOfTag tag = none) : s.Unbound tag := by
  rw [Part.slotOfTag, List.findIdx?_eq_none_iff] at h
  intro n r hr
  rw [Part.record_some_iff] at hr
  have := h _ (List.mem_of_getElem? hr)
  simpa using this

theorem Part.findTag_zero (s : Part) : s.findTag 0 = .error (.bare .badTag) := rfl

theorem Part.findTag_unbound {s : Part} {tag : Nat} (h0 : tag ≠ 0) (h : s.Unbound tag) :
    s.findTag tag = .error (.bare .notFound) := by
  simp [Part.findTag, h0, Part.slotOfTag_unbound h]

theorem Part.findTag_binds {s : Part} {tag n : Nat} {r : Record} (hk : s.KeysUnique) (h : s.Binds tag n r) :
    s.findTag tag = .ok (n, r) := by
  simp [Part.findTag, h.1, Part.slotOfTag_binds hk h, h.2.1]

/-- What is found for a tag is a record with it. -/
theorem Part.findTag_ok {s : Part} {tag n : Nat} {r : Record} (h : s.findTag tag = .ok (n, r)) : s.Binds tag n r := by
  unfold Part.findTag at h
  split at h
  · exact absurd h (by simp)
  · rename_i h0
    split at h
    · rename_i m hm
      split at h
      · rename_i q hq
        obtain ⟨q', hq', ht⟩ := Part.slotOfTag_some hm
        simp only [Except.ok.injEq, Prod.mk.injEq] at h
        obtain ⟨rfl, rfl⟩ := h
        exact ⟨h0, hq, by rw [hq] at hq'; cases hq'; exact ht⟩
      · exact absurd h (by simp)
    · exact absurd h (by simp)

/-- Checks 1 to 3 pass for a bound tag that the port may change. -/
theorem Part.findOwned_allows {s : Part} {p : Port} {tag n : Nat} {r : Record} (hk : s.KeysUnique) (h : s.Binds tag n r)
    (ha : r.Allows p) : s.findOwned p tag = .ok (n, r) := by
  have hno : ¬(r.owner ≠ p ∧ r.shared = false) := by
    rintro ⟨ho, hs⟩
    rcases ha with ha | ha
    · exact ho ha
    · simp [hs] at ha
  simp [Part.findOwned, Part.findTag_binds hk h, hno]

theorem Part.findOwned_refuses {s : Part} {p : Port} {tag n : Nat} {r : Record} (hk : s.KeysUnique) (h : s.Binds tag n r)
    (ho : r.owner ≠ p) (hs : r.shared = false) : s.findOwned p tag = .error (.bare .notOwner) := by
  simp [Part.findOwned, Part.findTag_binds hk h, ho, hs]

theorem Part.findOwned_zero (s : Part) (p : Port) : s.findOwned p 0 = .error (.bare .badTag) := rfl

theorem Part.findOwned_unbound {s : Part} (p : Port) {tag : Nat} (h0 : tag ≠ 0) (h : s.Unbound tag) :
    s.findOwned p tag = .error (.bare .notFound) := by
  simp [Part.findOwned, Part.findTag_unbound h0 h]

/-- What checks 1 to 3 pass is a bound record that the port may change. -/
theorem Part.findOwned_ok {s : Part} {p : Port} {tag n : Nat} {r : Record} (h : s.findOwned p tag = .ok (n, r)) :
    s.Binds tag n r ∧ r.Allows p := by
  unfold Part.findOwned at h
  split at h
  · exact absurd h (by simp)
  · rename_i m q hq
    split at h
    · exact absurd h (by simp)
    · rename_i hno
      simp only [Except.ok.injEq, Prod.mk.injEq] at h
      obtain ⟨rfl, rfl⟩ := h
      refine ⟨Part.findTag_ok hq, ?_⟩
      by_cases ho : q.owner = p
      · exact Or.inl ho
      · right
        rcases hs : q.shared
        · exact absurd ⟨ho, hs⟩ hno
        · rfl

end Sys2Proof.Machine
end

