-- ==== Sys2Proof/Tests/Slice0.lean ====
section
/-! SUPPORT. The model's own tests: checks of the tables and of short examples of the spec, and for each statement with
hypotheses a concrete state and operands that meet them. -/

namespace Sys2Proof.Tests

open Sys2Proof Sys2Proof.Machine

/-! ### Helpers -/

/-- The part after a command. -/
def after (c : Instr) (s : Part) : Part :=
  match exec c ⟨s, []⟩ with
  | .next t => t.part
  | .fault _ | .refused _ => s

/-- The part after some commands. -/
def run (s : Part) (cs : List Instr) : Part := cs.foldl (fun s c => after c s) s

/-- A request that goes in through Port 0, is taken, and is collected. -/
def ask (s : Part) (c : Instr) (k : RequestCode) (tag : Nat) (args : List Byte) : Part :=
  run s [.submit (.whole ([k.code, 7] ++ be16 tag ++ [BitVec.ofNat 8 args.length] ++ args)), c, .collect (.whole 60)]

/-- The status that Port 0 shifted out. -/
def status (s : Part) : Option Byte := s.port0Out[1]?

/-- An INPUT record. -/
def input : Record where
  tag := 5
  owner := .port0
  shared := false
  kind := .input
  segment := .a
  station := 4
  object := 2
  length := 2
  period := 1
  phase := 0
  countdown := some 0
  state := .live
  condition := .ok
  age := 0
  freshnessLimit := some 3
  retryBudget := 3
  errorCount := 0
  sequenceBit := false
  dirty := false
  rewritten := false
  missed := false
  noticeMode := .state
  expected := none
  value := none
  staged := none
  guardPhase := .closed
  guardToken := none
  tokenCounter := none
  silentRetire := false
  reasons := .empty

/-- An OUTPUT record. -/
def output : Record := { input with kind := .output, value := some [1, 2], dirty := true }

/-- A GUARDED record with no write open. -/
def guarded : Record :=
  { output with kind := .guarded, period := 0, countdown := none, freshnessLimit := none, tokenCounter := some 255 }

/-- A GUARDED record with a write open in a phase, token 9. -/
def opened (phase : GuardPhase) : Record :=
  { guarded with guardPhase := phase, guardToken := some 9, staged := some [1, 2] }

/-- A table of one slot that holds a record, its station PRESENT. -/
def one (r : Record) : Part :=
  { Part.reset with slots := [some r] }.withStation .a 4 ⟨.present, some ⟨1, 1⟩, 0⟩

/-- A table of one slot that is FREE. -/
def vacant : Part := { Part.reset with slots := [none] }

/-- The part with another station 4. -/
def at4 (s : Part) (st : StationState) : Part :=
  s.withStation .a 4 ⟨st, if st = .absent then none else some ⟨1, 1⟩, 0⟩

/-- The part with segment A in a state, and its engine as given. -/
def onLine (s : Part) (st : SegmentState) (e : Engine) : Part :=
  (s.updateControl .a fun c => { c with state := st }).updateEngine .a fun _ => e

/-- A request frame. -/
def frame (c : RequestCode) (tag : Nat) (args : List Byte) : RequestFrame := ⟨c.code, 7, tag, args⟩

/-- The machine with a request SUBMITTED in Port 0. -/
def asked (s : Part) (c : RequestCode) (tag : Nat) (args : List Byte) : State :=
  ⟨s.withBuffer .port0 (.submitted (frame c tag args)), []⟩

theorem asked_standing (s : Part) (c : RequestCode) (tag : Nat) (args : List Byte) (h : s.resetLow = false) :
    (asked s c tag args).part.Standing .port0 c (frame c tag args) := ⟨h, rfl, rfl⟩

theorem record_of_one {s : Part} {r q : Record} {n : Nat} (h : s.slots = [some r]) (hq : s.record n = some q) :
    n = 0 ∧ q = r := by
  rw [Part.record_some_iff, h] at hq
  rcases n with _ | n
  · simp only [List.getElem?_cons_zero, Option.some.injEq] at hq
    exact ⟨rfl, hq.symm⟩
  · simp at hq

theorem record_of_vacant {s : Part} {q : Record} {n : Nat} (h : s.slots = [none]) (hq : s.record n = some q) : False := by
  rw [Part.record_some_iff, h] at hq
  rcases n with _ | n <;> simp at hq

theorem keys_of_one {s : Part} {r : Record} (h : s.slots = [some r]) : s.KeysUnique := by
  intro m n q q' hm hn hne
  exact absurd ((record_of_one h hm).1.trans (record_of_one h hn).1.symm) hne

theorem unbound_of_one {s : Part} {r : Record} {tag : Nat} (h : s.slots = [some r]) (ht : r.tag ≠ tag) :
    s.Unbound tag := by
  intro n q hq
  rw [(record_of_one h hq).2]
  exact ht

theorem unbound_of_vacant {s : Part} {tag : Nat} (h : s.slots = [none]) : s.Unbound tag :=
  fun _ _ hq => (record_of_vacant h hq).elim

theorem binds_of_one {s : Part} {r : Record} (h : s.slots = [some r]) (ht : r.tag ≠ 0) : s.Binds r.tag 0 r :=
  ⟨ht, by rw [Part.record_some_iff, h]; rfl, rfl⟩

/-! ### Commands, tables, frames -/

/-- An UNKNOWN_OPERATION with the operation byte of SUBMIT, COLLECT or POLL is no command. -/
theorem test_known_operations_refused :
    (Instr.unknownOperation 0xA1 (.whole 1)).wellFormed = false ∧ (Instr.unknownOperation 0xA2 (.whole 1)).wellFormed = false ∧
      (Instr.unknownOperation 0xA3 (.whole 1)).wellFormed = false ∧ (Instr.unknownOperation 0xA0 (.whole 1)).wellFormed = true := by
  decide

/-- No row of the table carries bits, so no word spells a command. -/
theorem test_no_word_spells_a_command (nbits w : Nat) : decodeTableWord nbits w = none := rfl

/-- The check example of section 3.2. -/
theorem test_check_example :
    check [0x31, 0x32, 0x33, 0x34, 0x35, 0x36, 0x37, 0x38, 0x39] = 0x29B1#16 ∧
      check [0x31, 0x32, 0x33, 0x34, 0x35, 0x36, 0x37, 0x38, 0x39, 0x29, 0xB1] = 0 := by
  decide +kernel

/-- The request codes are 01 to 12, in the order of the table. -/
theorem test_request_codes : RequestCode.all.map (·.code) = (List.range' 1 18).map (BitVec.ofNat 8) := by decide

/-- A character goes least significant bit first, between a start bit of 0 and a stop bit of 1. -/
theorem test_character_bits :
    characterBits 0x35 = [false, true, false, true, false, true, true, false, false, true] := by decide

/-- The reservation of a FETCH of 4 bytes at W = 48 and 1 Mbit/s: 228 bit times of 20 cycles. -/
theorem test_reservation : SegmentConfig.reset.reservation .fetch 4 = 228 * 20 := by decide

/-- The settings of SEGMENT_CONFIGURE at the ends of their ranges. -/
theorem test_config_ranges :
    (configArgs 0 0 10 16 1 1).toOption = some ⟨.kbit250, 10, 16, 1, 1⟩ ∧
      (configArgs 2 7 208 255 255 15).toOption = some ⟨.mbit2p5, 2000, 255, 255, 15⟩ ∧
      [configArgs 3 0 10 16 1 1, configArgs 0 0 9 16 1 1, configArgs 0 7 209 16 1 1, configArgs 0 0 10 15 1 1,
        configArgs 0 0 10 16 0 1, configArgs 0 0 10 16 1 0, configArgs 0 0 10 16 1 16].map Except.toOption =
        List.replicate 7 none := by
  decide

/-! ### The example of section 1.9 -/

/-- The arguments of an INSERT of an INPUT record. -/
def insertInput (object : Byte) : List Byte := [1, 0, 4, object, 4, 1, 0, 3, 0, 0, 0, 0, 0, 0, 0, 0, 0]

/-- The arguments of an INSERT of an OUTPUT record. -/
def insertOutput : List Byte := [2, 0, 4, 9, 1, 0, 0, 0, 0, 0, 0, 0, 0, 0, 0, 0, 0, 0x5A]

/-- Slots 0, 1 and 2 are given out in order. -/
def three : Part :=
  let s := ask { Part.reset with slots := List.replicate 4 none } (.insert .port0) .insert 700 (insertInput 1)
  let s := ask s (.insert .port0) .insert 120 insertOutput
  ask s (.insert .port0) .insert 4000 (insertInput 2)

theorem test_insert_example : three.tagDirectory = [(120, 1), (700, 0), (4000, 2)] := by decide +kernel

/-- The retired record, its notice, and the slot it leaves. -/
theorem test_retire_example :
    let s := ask three (.retire .port0) .retire 120 []
    let t := ask s (.takeAttention .port0) .takeAttention 0 []
    status s = some 0 ∧ s.port0.attention = [1] ∧ s.tagDirectory = three.tagDirectory ∧
      status t = some 0 ∧ t.freeSlots = [1, 3] ∧ t.tagDirectory = [(700, 0), (4000, 2)] := by
  decide +kernel

/-- The enumeration of section 1.9. -/
theorem test_scan_example :
    [0, 121, 701, 4001].map (fun tag => (three.firstFrom tag).map (·.1)) = [some 120, some 700, some 4000, none] := by
  decide +kernel

/-! ### Witnesses: steps and reset -/

theorem witness_StepTakesFrontOfQueue : State.reset.pending = [] := rfl

theorem witness_ResetClearsPart :
    (⟨{ Part.reset with resetLow := true }, []⟩ : State).part.resetLow = true ∧ State.reset.part.resetLow = false := by
  decide

theorem witness_NothingTakenInReset :
    (⟨{ Part.reset with resetLow := true }, []⟩ : State).part.resetLow = true ∧ Instr.lookup .port0 ≠ .reset ∧
      Instr.lookup .port0 ≠ .powerOn ∧ (∀ adr, Instr.lookup .port0 ≠ .resetRelease adr) ∧
      ∀ g level, Instr.lookup .port0 ≠ .supplyFault g level := by
  refine ⟨by decide, by decide, by decide, nofun, nofun⟩

/-! ### Witnesses: reads -/

theorem witness_LookupAnswers :
    (asked (one input) .lookup 0 []).part.Standing .port0 .lookup (frame .lookup 0 []) ∧
      ((asked (one input) .lookup 65535 []).part.Standing .port0 .lookup (frame .lookup 65535 []) ∧
        (asked (one input) .lookup 65535 []).part.Unbound 65535) ∧
      (asked (one input) .lookup 5 []).part.Standing .port0 .lookup (frame .lookup 5 []) ∧
      (asked (one input) .lookup 5 []).part.KeysUnique ∧ (asked (one input) .lookup 5 []).part.Binds 5 0 input :=
  ⟨asked_standing _ _ _ _ rfl, ⟨asked_standing _ _ _ _ rfl, unbound_of_one (r := input) rfl (by decide)⟩,
    asked_standing _ _ _ _ rfl, keys_of_one (r := input) rfl, binds_of_one (r := input) rfl (by decide)⟩

theorem witness_ScanFromAnswers :
    ((asked (one input) .scanFrom 6 []).part.Standing .port0 .scanFrom (frame .scanFrom 6 []) ∧
        ∀ n r, (asked (one input) .scanFrom 6 []).part.record n = some r → r.tag < 6) ∧
      (asked (one input) .scanFrom 5 []).part.Standing .port0 .scanFrom (frame .scanFrom 5 []) ∧
      (asked (one input) .scanFrom 5 []).part.KeysUnique ∧
      (asked (one input) .scanFrom 5 []).part.record 0 = some input ∧ 5 ≤ input.tag ∧
      ∀ m q, (asked (one input) .scanFrom 5 []).part.record m = some q → 5 ≤ q.tag → input.tag ≤ q.tag :=
  ⟨⟨asked_standing _ _ _ _ rfl, fun _ _ h => by rw [(record_of_one (r := input) rfl h).2]; decide⟩,
    asked_standing _ _ _ _ rfl, keys_of_one (r := input) rfl, rfl, by decide,
    fun _ _ h _ => by rw [(record_of_one (r := input) rfl h).2]⟩

theorem witness_ReadAnswers :
    (∀ args : List Byte, (asked (one output) .read 5 args).part.Standing .port0 .read (frame .read 5 args) ∧
        (asked (one output) .read 5 args).part.KeysUnique ∧ (asked (one output) .read 5 args).part.Binds 5 0 output) ∧
      ((asked (one output) .read 6 [0]).part.Unbound 6 ∧ (2 : Byte) ≠ 0 ∧ (2 : Byte) ≠ 1) :=
  ⟨fun _ => ⟨asked_standing _ _ _ _ rfl, keys_of_one (r := output) rfl, binds_of_one (r := output) rfl (by decide)⟩,
    unbound_of_one (r := output) rfl (by decide), by decide, by decide⟩

/-! ### Witnesses: INSERT -/

/-- The least fields, and the greatest. -/
def least : InsertArgs := ⟨2, 0, 1, 0, 1, 0, 0, 0, 0, 0, 0, none, [7]⟩
def greatest : InsertArgs :=
  ⟨1, 1, 30, 255, 32, 255, 254, 255, 7, 1, 1, some ⟨0xFFFFFFFF, 255⟩, []⟩

/-- The argument block that holds these fields. -/
def block (a : InsertArgs) : List Byte :=
  [a.kind, a.segment, a.station, a.object, a.length, a.period, a.phase, a.freshnessLimit, a.retryBudget, a.noticeMode,
    a.shared] ++ ((a.expected.map fun i => 1#8 :: identityBytes i).getD [0, 0, 0, 0, 0, 0]) ++ a.value

theorem least_fits : least.Fits .output .a := by
  constructor <;> decide

theorem greatest_fits : greatest.Fits .input .b := by
  constructor <;> decide

theorem witness_InsertAccepted (a : InsertArgs) (kind : RecordKind) (g : Segment)
    (h : (a, kind, g) = (least, .output, .a) ∨ (a, kind, g) = (greatest, .input, .b)) :
    (asked vacant .insert 5 (block a)).part.Standing .port0 .insert (frame .insert 5 (block a)) ∧
      (asked vacant .insert 5 (block a)).part.Unbound 5 ∧ insertArgs (block a) = some a ∧ a.Fits kind g ∧
      (kind.outputClass = true → ∀ m q, (asked vacant .insert 5 (block a)).part.record m = some q →
        q.kind.outputClass = true → ¬q.SameRoute g a.station.toNat a.object.toNat) ∧
      0 < (asked vacant .insert 5 (block a)).part.slots.length ∧
      (asked vacant .insert 5 (block a)).part.record 0 = none ∧
      ∀ m, m < 0 → (asked vacant .insert 5 (block a)).part.record m ≠ none := by
  refine ⟨asked_standing _ _ _ _ rfl, unbound_of_vacant rfl, ?_, ?_, fun _ _ _ hq => (record_of_vacant rfl hq).elim,
    Nat.one_pos, rfl, fun _ hm => absurd hm (Nat.not_lt_zero _)⟩ <;>
    rcases h with h | h <;> cases h
  · decide
  · decide
  · exact least_fits
  · exact greatest_fits

theorem witness_InsertRefused :
    (asked (one output) .insert 6 (block { least with station := 4, object := 2 })).part.Standing .port0 .insert
        (frame .insert 6 (block { least with station := 4, object := 2 })) ∧
      (asked (one output) .insert 5 []).part.Binds 5 0 output ∧ (asked (one output) .insert 6 []).part.Unbound 6 ∧
      insertArgs (block { least with station := 4, object := 2 }) = some { least with station := 4, object := 2 } ∧
      { least with station := 4, object := 2 : InsertArgs }.Fits .output .a ∧
      ((asked (one output) .insert 6 []).part.record 0 = some output ∧ output.kind.outputClass = true ∧
        output.SameRoute .a 4 2) ∧
      ((∀ m q, (asked (one output) .insert 6 []).part.record m = some q → ¬q.SameRoute .a 1 0) ∧
        ∀ m, m < (asked (one output) .insert 6 []).part.slots.length →
          (asked (one output) .insert 6 []).part.record m ≠ none) := by
  refine ⟨asked_standing _ _ _ _ rfl, binds_of_one (r := output) rfl (by decide),
    unbound_of_one (r := output) rfl (by decide), by decide, by constructor <;> decide,
    ⟨rfl, rfl, rfl, rfl, rfl⟩, fun m q hq hr => ?_, fun m hm => ?_⟩
  · rw [(record_of_one (r := output) rfl hq).2] at hr
    exact absurd hr.2.1 (by decide)
  · rcases m with _ | m
    · decide
    · exact absurd hm (Nat.not_lt.mpr (Nat.le_add_left 1 m))

/-- The field that each of these breaks, by its offset. -/
def broken : List (InsertArgs × Byte) :=
  [({ least with kind := 0 }, 0), ({ least with kind := 4 }, 0), ({ least with segment := 2 }, 1),
    ({ least with station := 0 }, 2), ({ least with station := 31 }, 2), ({ least with length := 0 }, 4),
    ({ least with length := 33 }, 4), ({ greatest with period := 0 }, 5), ({ least with kind := 3, period := 1 }, 5),
    ({ greatest with phase := 255 }, 6), ({ least with phase := 1 }, 6), ({ greatest with freshnessLimit := 0 }, 7),
    ({ least with retryBudget := 8 }, 8), ({ least with noticeMode := 2 }, 9), ({ least with shared := 2 }, 10),
    ({ least with value := [] }, 17), ({ greatest with value := [0] }, 17)]

theorem witness_InsertNamesFirstBadField :
    ∀ x ∈ broken,
      insertArgs (block x.1) = some x.1 ∧
      (if x.1.kind ≠ 1 ∧ x.1.kind ≠ 2 ∧ x.1.kind ≠ 3 then some 0
        else if x.1.segment ≠ 0 ∧ x.1.segment ≠ 1 then some 1
        else if x.1.station = 0 ∨ 30 < x.1.station.toNat then some 2
        else if x.1.length = 0 ∨ 32 < x.1.length.toNat then some 4
        else if (x.1.kind = 1 ∧ x.1.period = 0) ∨ (x.1.kind = 3 ∧ x.1.period ≠ 0) then some 5
        else if (x.1.period ≠ 0 ∧ x.1.period.toNat ≤ x.1.phase.toNat) ∨ (x.1.period = 0 ∧ x.1.phase ≠ 0) then some 6
        else if (x.1.kind = 1 ∨ (x.1.kind = 2 ∧ x.1.period ≠ 0)) ∧ x.1.freshnessLimit = 0 then some 7
        else if 7 < x.1.retryBudget.toNat then some 8
        else if x.1.noticeMode ≠ 0 ∧ x.1.noticeMode ≠ 1 then some 9
        else if x.1.shared ≠ 0 ∧ x.1.shared ≠ 1 then some 10
        else if (x.1.kind ≠ 1 ∧ x.1.value.length ≠ x.1.length.toNat) ∨ (x.1.kind = 1 ∧ x.1.value ≠ []) then some 17
        else none) = some x.2 := by
  decide +kernel

/-- The other hypotheses of that statement. -/
theorem witness_InsertStands (args : List Byte) :
    (asked vacant .insert 5 args).part.Standing .port0 .insert (frame .insert 5 args) ∧
      (asked vacant .insert 5 args).part.Unbound 5 :=
  ⟨asked_standing _ _ _ _ rfl, unbound_of_vacant rfl⟩

/-! ### Witnesses: the requests on a record -/

/-- A request on the record of a table of one slot meets the hypotheses that the record requests share. -/
theorem witness_record_request (r : Record) (c : RequestCode) (args : List Byte) (ht : r.tag ≠ 0)
    (ho : r.owner = .port0) :
    (asked (one r) c r.tag args).part.Standing .port0 c (frame c r.tag args) ∧
      (asked (one r) c r.tag args).part.KeysUnique ∧ (asked (one r) c r.tag args).part.Binds r.tag 0 r ∧
      r.Allows .port0 :=
  ⟨asked_standing _ _ _ _ rfl, keys_of_one (r := r) rfl, binds_of_one (r := r) rfl ht, Or.inl ho⟩

/-- The same for the other port on a shared record. -/
theorem witness_shared : { input with owner := .port1, shared := true : Record }.Allows .port0 := Or.inr rfl

theorem witness_RecordRequestsChecked :
    (Instr.retire .port0, RequestCode.retire) ∈ [(Instr.amend .port0, RequestCode.amend), (.write .port0, .write),
      (.resume .port0, .resume), (.restart .port0, .restart), (.retire .port0, .retire)] ∧
      (asked (one input) .retire 0 []).part.Standing .port0 .retire (frame .retire 0 []) ∧
      (asked (one input) .retire 6 []).part.Unbound 6 ∧
      (asked (one { input with owner := .port1 }) .retire 5 []).part.KeysUnique ∧
      (asked (one { input with owner := .port1 }) .retire 5 []).part.Binds 5 0 { input with owner := .port1 } ∧
      ({ input with owner := .port1 } : Record).owner ≠ .port0 ∧ input.shared = false :=
  ⟨by decide, asked_standing _ _ _ _ rfl, unbound_of_one (r := input) rfl (by decide),
    keys_of_one (r := { input with owner := .port1 }) rfl,
    binds_of_one (r := { input with owner := .port1 }) rfl (by decide), by decide, rfl⟩

/-- A HALTED record that expects another identity than its PRESENT station's. -/
def mismatched : Record := { input with state := .halted, expected := some ⟨2, 1⟩ }

theorem witness_RecordRequestsWrongState :
    ({ input with state := .retired } : Record).state = .retired ∧ input.kind = .input ∧ input.state ≠ .halted ∧
      mismatched.expected = some ⟨2, 1⟩ ∧
      (asked (one mismatched) .resume 5 []).part.station .a 4 = some ⟨.present, some ⟨1, 1⟩, 0⟩ ∧
      (⟨1, 1⟩ : Identity) ≠ ⟨2, 1⟩ := by
  decide

/-- AMEND arguments that name every field, at the ends of their ranges. -/
def amends (mask period phase limit budget notice shared operation : Byte) : List Byte :=
  [mask, period, phase, limit, budget, notice, shared, operation, 0, 0, 0, 2, 1]

theorem witness_AmendAccepted :
    amendArgs (amends 0x7F 255 254 1 7 1 1 0) = some ⟨some 255, some 254, some 1, some 7, some 1, some 1, some none⟩ ∧
      (⟨some 255, some 254, some 1, some 7, some 1, some 1, some none⟩ : AmendArgs).failing input = none ∧
      input.state.active = true ∧
      (∀ (i : Identity) (j : Station), (some none : Option (Option Identity)) = some (some i) →
        (asked (one input) .amend 5 []).part.station .a 4 = some j → j.state = .present → j.identity = some i) ∧
      amendArgs (amends 0 0 0 0 0 0 0 0) = some ⟨none, none, none, none, none, none, none⟩ ∧
      (⟨none, none, none, none, none, none, none⟩ : AmendArgs).failing input = none :=
  ⟨by decide, by decide, rfl, nofun, by decide, by decide⟩

/-- Arguments, the fields they name, the record they amend, and the field they break. -/
def brokenAmends : List (List Byte × AmendArgs × Record × Byte) :=
  [(amends 1 0 0 0 0 0 0 0, ⟨some 0, none, none, none, none, none, none⟩, input, 1),
    (amends 1 1 0 0 0 0 0 0, ⟨some 1, none, none, none, none, none, none⟩, guarded, 1),
    (amends 2 0 1 0 0 0 0 0, ⟨none, some 1, none, none, none, none, none⟩, input, 2),
    (amends 2 0 1 0 0 0 0 0, ⟨none, some 1, none, none, none, none, none⟩, guarded, 2),
    (amends 4 0 0 0 0 0 0 0, ⟨none, none, some 0, none, none, none, none⟩, input, 3),
    (amends 1 1 0 0 0 0 0 0, ⟨some 1, none, none, none, none, none, none⟩,
      { output with period := 0, freshnessLimit := none }, 3),
    (amends 8 0 0 0 8 0 0 0, ⟨none, none, none, some 8, none, none, none⟩, input, 4),
    (amends 16 0 0 0 0 2 0 0, ⟨none, none, none, none, some 2, none, none⟩, input, 5),
    (amends 32 0 0 0 0 0 2 0, ⟨none, none, none, none, none, some 2, none⟩, input, 6)]

theorem witness_AmendNamesFirstBadField :
    ∀ x ∈ brokenAmends, let a := x.2.1
      let r := x.2.2.1
      let period := a.period.getD r.period
      let phase := a.phase.getD (if period = 0 then 0 else r.phase)
      let limit := if a.freshnessLimit.isSome then a.freshnessLimit else r.freshnessLimit
      amendArgs x.1 = some a ∧ r.state.active = true ∧
      (if (r.kind = .input ∧ period = 0) ∨ (r.kind = .guarded ∧ period ≠ 0) then some 1
        else if (period ≠ 0 ∧ period ≤ phase) ∨ (period = 0 ∧ phase ≠ 0) then some 2
        else if (r.kind = .input ∨ (r.kind = .output ∧ period ≠ 0)) ∧ (limit = none ∨ limit = some 0) then some 3
        else if a.retryBudget.any (7 < ·) then some 4
        else if a.noticeMode.any (fun b => b ≠ 0 ∧ b ≠ 1) then some 5
        else if a.shared.any (fun b => b ≠ 0 ∧ b ≠ 1) then some 6
        else none) = some x.2.2.2 := by
  decide +kernel

theorem witness_AmendComparesIdentity :
    amendArgs (amends 64 0 0 0 0 0 0 1) = some ⟨none, none, none, none, none, none, some (some ⟨2, 1⟩)⟩ ∧
      (⟨none, none, none, none, none, none, some (some ⟨2, 1⟩)⟩ : AmendArgs).failing input = none ∧
      (asked (one input) .amend 5 []).part.station .a 4 = some ⟨.present, some ⟨1, 1⟩, 0⟩ ∧
      (some ⟨1, 1⟩ : Option Identity) ≠ some ⟨2, 1⟩ ∧ input.state.served = true ∧ mismatched.state = .halted := by
  decide

theorem witness_WriteAccepted :
    output.kind ≠ .input ∧ output.state ≠ .retiring ∧ output.state ≠ .retired ∧ [(1 : Byte)].length ≠ output.length ∧
      [(1 : Byte), 2].length = output.length := by
  decide

theorem witness_ResumeAndRestartAccepted :
    ({ opened .stage with state := .halted } : Record).state = .halted ∧
      ∀ (i : Identity) (j : Station), (opened .stage).expected = some i →
        (asked (one (opened .stage)) .resume 5 []).part.station .a 4 = some j → j.state = .present →
        j.identity = some i :=
  ⟨rfl, nofun⟩

/-- An exchange of the record in slot 0. -/
def serving (k : ExchangeKind) : Exchange := ⟨k, some 0, 4, 2, 2, if k.guarded then some 9 else none, false, 4000⟩

/-- An engine whose exchange serves slot 0. -/
def busy (k : ExchangeKind) : Engine := { Engine.reset with exchange := some (serving k), state := .wait 100 }

theorem witness_RetireAccepted :
    (onLine (one input) .running (busy .fetch)).inFlight 0 input = true ∧
      ((onLine (one (opened .verify)) .held .reset).inFlight 0 (opened .verify) = false ∧
        (onLine (one (opened .verify)) .held .reset).stationState .a 4 = .present ∧
        ((onLine (one (opened .verify)) .held .reset).control .a).state = .held) ∧
      (onLine (one (opened .cancel)) .off .reset).inFlight 0 (opened .cancel) = false ∧
      (onLine (one (opened .stage)) .running .reset).inFlight 0 (opened .stage) = false := by
  decide

theorem witness_PurgeFreesOwned :
    (asked (one input) .purge 0 []).part.Standing .port0 .purge (frame .purge 0 []) ∧
      (asked (one input) .purge 0 []).part.QueuesSound ∧ (asked (one input) .purge 0 []).part.ListsSound := by
  refine ⟨asked_standing _ _ _ _ rfl, fun g => ?_, fun p => ?_⟩
  · have he : (asked (one input) .purge 0 []).part.engine g = Engine.reset := by cases g <;> rfl
    refine ⟨?_, ?_, ?_, ?_, ?_, ?_, ?_⟩ <;> rw [he]
    · exact List.nodup_nil
    · intro n hn
      exact absurd hn (by simp [Engine.queued, Engine.reset])
    · exact List.Pairwise.nil
    · intro n hn
      exact absurd hn (by simp [Engine.inFlightKind, Engine.inFlightKind.outcomeKind, Engine.reset])
    · intro x hx
      exact absurd hx (by simp [Engine.reset])
    · exact Nat.zero_le _
    · intro hx
      exact absurd hx (by simp [Engine.reset])
  · have hp : ((asked (one input) .purge 0 []).part.port p).attention = [] := by cases p <;> rfl
    rw [hp]
    exact ⟨List.nodup_nil, nofun⟩

theorem witness_ReleaseFreesSlot : (one input).record 0 = some input := rfl

/-! ### Witnesses: stations and segments -/

theorem witness_StationQueryAnswers :
    (asked vacant .stationQuery 0 [1, 30]).part.Standing .port0 .stationQuery (frame .stationQuery 0 [1, 30]) ∧
      ((Instr.stationBar .port0, RequestCode.stationBar) ∈ [(Instr.stationQuery .port0, RequestCode.stationQuery),
        (.stationBar .port0, .stationBar), (.stationUnbar .port0, .stationUnbar)]) ∧
      ((2 : Byte) ≠ 0 ∧ (2 : Byte) ≠ 1) ∧ 30 < (31 : Byte).toNat ∧
      ((1 : Byte) = segmentCode .b ∧ 1 ≤ (30 : Byte).toNat ∧ (30 : Byte).toNat ≤ 30) ∧
      (asked vacant .stationQuery 0 [1, 30]).part.station .b 30 = some .reset ∧
      (asked vacant .stationQuery 0 [1, 1]).part.station .b 1 = some .reset :=
  ⟨asked_standing _ _ _ _ rfl, by decide, by decide, by decide, by decide, by decide, by decide⟩

/-- STATION_BAR and STATION_UNBAR of station 4 in each of its states. -/
theorem witness_StationBarAndUnbarAct (c : RequestCode) (st : StationState) :
    (asked (at4 (one input) st) c 0 [0, 4]).part.Standing .port0 c (frame c 0 [segmentCode .a, 4]) ∧
      ∃ e, (asked (at4 (one input) st) c 0 [0, 4]).part.station .a 4 = some e ∧ e.state = st := by
  refine ⟨asked_standing _ _ _ _ rfl, _, rfl, ?_⟩
  rfl

theorem witness_SegmentConfigureAnswers :
    (asked vacant .segmentConfigure 0 [0, 0, 0, 10, 16, 1, 1]).part.Standing .port0 .segmentConfigure
        (frame .segmentConfigure 0 [0, 0, 0, 10, 16, 1, 1]) ∧
      ((asked vacant .segmentConfigure 0 []).part.control .a).state = .off ∧
      ((asked (onLine vacant .fault .reset) .segmentConfigure 0 []).part.control .a).state ≠ .off ∧
      ((asked vacant .segmentConfigure 0 []).part.control .a).stationTeardowns = 0 ∧
      ((asked (vacant.updateControl .a fun c => { c with stationTeardowns := 1 }) .segmentConfigure 0 []).part.control
        .a).stationTeardowns ≠ 0 :=
  ⟨asked_standing _ _ _ _ rfl, rfl, by decide, rfl, by decide⟩

/-- Every SEGMENT_COMMAND in every state of segment A. -/
theorem witness_SegmentCommands (row : SegmentCommand) (st : SegmentState) (level : Bool) :
    let s := (onLine vacant st .reset).updateControl .a fun c => { c with faultIn := level }
    (asked s .segmentCommand 0 [0, row.code]).part.Standing .port0 .segmentCommand
        (frame .segmentCommand 0 [segmentCode .a, row.code]) ∧
      ((asked s .segmentCommand 0 [0, row.code]).part.control .a).state = st ∧
      ((asked s .segmentCommand 0 [0, row.code]).part.control .a).faultIn = level ∧
      ((asked s .segmentCommand 0 [0, row.code]).part.engine .a).state = .ready :=
  ⟨asked_standing _ _ _ _ rfl, rfl, rfl, rfl⟩

/-- The bytes that SEGMENT_COMMAND refuses, and a RELEASE in whose time the engine settles. -/
theorem witness_SegmentCommandsRefused :
    ((2 : Byte) ≠ 0 ∧ (2 : Byte) ≠ 1) ∧ 3 < (4 : Byte).toNat ∧
      ((asked (onLine vacant .held { Engine.reset with state := .settle 400 }) .segmentCommand 0 [0, 3]).part.engine
        .a).state ≠ .ready := by
  decide

theorem witness_SegmentStatusReports :
    (asked vacant .segmentStatus 0 [1]).part.Standing .port0 .segmentStatus (frame .segmentStatus 0 [1]) ∧
      (1 : Byte) = segmentCode .b ∧ (2 : Byte) ≠ 0 ∧ (2 : Byte) ≠ 1 :=
  ⟨asked_standing _ _ _ _ rfl, by decide, by decide, by decide⟩

/-! ### Witnesses: attention and ports -/

/-- The one record's slot stands on Port 0's list. -/
def noticed (r : Record) : Part := (one r).updatePort .port0 fun u => { u with attention := [0] }

theorem witness_TakeAttentionReturnsHead :
    ((asked vacant .takeAttention 0 []).part.Standing .port0 .takeAttention (frame .takeAttention 0 []) ∧
        ((asked vacant .takeAttention 0 []).part.port .port0).attention = []) ∧
      (asked (noticed input) .takeAttention 0 []).part.Standing .port0 .takeAttention (frame .takeAttention 0 []) ∧
      ((asked (noticed input) .takeAttention 0 []).part.port .port0).attention = 0 :: [] ∧
      (asked (noticed input) .takeAttention 0 []).part.record 0 = some input :=
  ⟨⟨asked_standing _ _ _ _ rfl, rfl⟩, asked_standing _ _ _ _ rfl, rfl, rfl⟩

theorem witness_PortConfigureSetsEnables :
    (asked vacant .portConfigure 0 [1, 0]).part.Standing .port0 .portConfigure (frame .portConfigure 0 [1, 0]) ∧
      (2 : Byte) ≠ 0 ∧ (2 : Byte) ≠ 1 :=
  ⟨asked_standing _ _ _ _ rfl, by decide, by decide⟩

theorem witness_SubmitTakesFrame :
    State.reset.part.resetLow = false ∧ State.reset.part.port0.buffer = .empty ∧
      ((0 : Byte).toNat = ([] : List Byte).length ∧
        ([1, 7, 0, 5, 0, 99] : List Byte) = 1 :: 7 :: 0 :: 5 :: 0 :: ([] ++ [99]) ∧
        ∃ c : RequestCode, c.code = 1 ∧ c.argRange.1 ≤ ([] : List Byte).length ∧
          ([] : List Byte).length ≤ c.argRange.2) ∧
      (¬∃ c : RequestCode, c.code = 0x13) ∧
      (∀ n, ([3, 7, 0, 5, 1] : List Byte)[4]? = some n → ([3, 7, 0, 5, 1] : List Byte).length < 5 + n.toNat) ∧
      (asked vacant .lookup 5 []).part.port0.buffer ≠ .empty ∧
      State.reset.part.port0Phase ≠ .begun ∧
      (run vacant [.submit .fall]).resetLow = false ∧ (run vacant [.submit .fall]).port0Phase = .begun := by
  refine ⟨rfl, rfl, ⟨rfl, rfl, .lookup, rfl, by decide, by decide⟩, ?_, ?_, by decide, by decide, rfl, rfl⟩
  · rintro ⟨c, hc⟩
    cases c <;> exact absurd hc (by decide)
  · intro n hn
    cases hn
    decide

/-- R194, R202: a claim between P0CSn's fall and the operation byte: the first byte shows SUBMITTED, and POLL then ANSWERED. A
fall alone does nothing, and a whole transaction samples as it is taken. -/
theorem test_status_sampled_at_fall :
    let s := (asked vacant .lookup 5 []).part
    (run s [.poll .fall, .lookup .port0, .poll (.rest 1)]).port0Out = [1, 2, 0] ∧
      (run s [.poll .fall, .lookup .port0, .collect .fall, .poll (.rest 1)]).port0Out = [2, 2, 0] ∧
      (run s [.poll (.whole 1)]).port0Out = [1, 1, 0] := by
  decide

/-- R185: the rest of a transaction that a reset abandoned, or that began in reset, is not taken; the next one is. -/
theorem test_transaction_abandoned :
    let up (l : List Instr) := run vacant (l ++ [.resetRelease false, .submit (.rest [9, 7, 0, 5, 0])])
    (up [.submit .fall, .reset]).port0.buffer = .empty ∧ (up [.reset, .submit .fall]).port0.buffer = .empty ∧
      (after (.submit (.whole [9, 7, 0, 5, 0])) (up [.submit .fall, .reset])).port0.buffer =
        .submitted ⟨9, 7, 5, []⟩ := by
  decide +kernel

/-- R193: POLL as P0SCK and P0SDI carry it; and P0SDO in a COLLECT of NOT_READY from its fall on: the status byte, 0x1B, and
the first bit of the next byte, to the rise. -/
theorem test_port0_bits :
    let collect := run vacant [.collect .fall, .collect (.rest 1)]
    port0Command ((busBits 0xA3 ++ busBits 0).flatMap fun b => [(false, b), (true, b)]) = some (.poll (.whole 1)) ∧
      (List.range 17).map (fun falls => collect.port0Level (List.replicate falls [true, false]).flatten) =
        (busBits 0 ++ busBits 0x1B ++ [false]).map some ∧
      (run vacant [.collect .fall]).port0Level [] = some false ∧ vacant.port0Level [] = none ∧
      (after (.collect .rise) collect).port0Level [] = none ∧
      (run vacant [.poll .fall, .poll .rise]).port0Level [] = none := by
  decide +kernel

/-- R197, R198: levels of P1SCL and P1SDA for these bits. -/
def clocked (bits : List Bool) : List (Bool × Bool) := bits.flatMap fun bit => [(false, bit), (true, bit), (false, bit)]

/-- R197 to R199: a write transfer of one byte to 0x4E that a bus error ends, and then a read transfer of two bytes, the second
answered with NACK. -/
theorem test_port1_bits :
    port1Commands ([(true, true), (true, false)] ++
        clocked (busBits 0x9C ++ [false] ++ busBits 0xA5 ++ [false] ++ [true, false, true]) ++
        [(false, true), (true, true), (true, false)] ++
        clocked (busBits 0x9D ++ [false] ++ busBits 0x1B ++ [false] ++ busBits 0 ++ [true]) ++
        [(false, false), (true, false), (true, true)]) =
      [.writeTransfer 0x4E [0xA5] .busError, .readTransfer 0x4E 2] := by
  decide +kernel

theorem witness_CollectAndPollShiftOut :
    State.reset.part.port0.buffer = .empty ∧
      (asked vacant .lookup 5 []).part.port0.buffer = .submitted (frame .lookup 5 []) ∧
      (vacant.withBuffer .port0 (.answered [0, 7, 1, 0])).port0.buffer = .answered [0, 7, 1, 0] ∧
      (0xA0 : Byte) ≠ 0xA1 ∧ (0xA0 : Byte) ≠ 0xA2 ∧ (0xA0 : Byte) ≠ 0xA3 ∧
      State.reset.part.port0Phase ≠ .begun ∧ State.reset.part.port0Phase = .idle ∧
      (let s := run vacant [.poll .fall];
        s.port0Phase = .begun ∧ s.port0Out = [0] ∧ s.port0Out.length = ([] : List Byte).length + 1) ∧
      (let s := run vacant [.collect .fall, .collect (.rest 0)];
        s.port0Phase ≠ .idle ∧ s.port0Out = [0, 0x1B] ∧ s.port0Out.length = ([0x85] : List Byte).length + 1) ∧
      [true, false, false, false, false, true, false, true, true] =
        (([0x85] : List Byte).flatMap fun b => [7, 6, 5, 4, 3, 2, 1, 0].map b.getLsbD) ++ [true] := by
  decide

theorem witness_Port1TransfersAct :
    State.reset.part.resetLow = false ∧ (0x4E : BitVec 7) = State.reset.part.port1Address ∧
      (0x4F : BitVec 7) ≠ State.reset.part.port1Address ∧ State.reset.part.port1.buffer = .empty ∧
      (vacant.withBuffer .port1 (.submitted (frame .lookup 5 []))).port1.buffer = .submitted (frame .lookup 5 []) ∧
      (vacant.withBuffer .port1 (.answered [0, 7, 1, 0])).port1.buffer = .answered [0, 7, 1, 0] ∧
      let s := run vacant [.readTransfer 0x4E 1]
      s.port1Acks[0]? = some true ∧ s.port1Acks.length ≤ 1 ∧ s.port1Out[1 - s.port1Acks.length]? = some 0x1B ∧
      ([true] : List Bool).length < 8 ∧ (∀ b ∈ [((0xA5 : Byte), false)], b.2 = false) ∧
      [((0xA5 : Byte), false), (0x5A, true)] = [(0xA5, false)] ++ (0x5A, true) :: [] := by
  decide +kernel

/-! ### Witnesses: the cycle -/

theorem witness_MarksAndFramesAreSent :
    (let s := onLine vacant .running { Engine.reset with cycleTimer := some 0 };
      s.resetLow = false ∧ (s.engine .a).state = .ready ∧ (s.control .a).state = .running ∧
        (s.engine .a).cycleTimer = some 0) ∧
      (let s := onLine vacant .running { Engine.reset with state := .request 1600 };
        (s.engine .a).state = .request 1600 ∧ (s.engine .a).exchange = none) ∧
      let s := onLine (one input) .running { busy .fetch with state := .request 1200 }
      (s.engine .a).state = .request 1200 ∧ (s.engine .a).exchange = some (serving .fetch) := by
  decide

theorem witness_CycleStepActs :
    let s := onLine (one input) .running { Engine.reset with stepsDue := 1 }
    s.resetLow = false ∧ (s.engine .a).stepsDue ≠ 0 ∧ (s.engine .a).toTable = [] ∧
      (s.control .a).stationTeardowns = 0 ∧ (s.control .a).recordTeardowns = [] := by
  decide

/-- Segment A scanning, with a scan position. -/
def scanning (position : Nat) (e : Engine) : Part :=
  (onLine vacant .scanning e).updateControl .a fun c => { c with scanPosition := some position }

theorem witness_SettlingEndActs :
    (let s := onLine vacant .running { Engine.reset with state := .settle 400, markOwed := true };
      s.resetLow = false ∧ (s.engine .a).state = .settle 400 ∧ (s.engine .a).markOwed = true) ∧
      (let s := onLine vacant .running { Engine.reset with state := .settle 400 };
        (s.engine .a).markOwed = false ∧ (s.control .a).state ≠ .scanning) ∧
      (let s := scanning 29 { Engine.reset with state := .settle 400 };
        (s.engine .a).markOwed = false ∧ (s.control .a).state = .scanning ∧ (s.control .a).scanPosition = some 29 ∧
          (s.stationState .a 30).probed = true ∧
          ∀ m, 29 < m → m < 30 → (s.stationState .a m).probed = false) ∧
      let s := scanning 30 { Engine.reset with state := .settle 400 }
      (s.control .a).scanPosition = some 30 ∧ ∀ n, 30 < n → n ≤ 30 → (s.stationState .a n).probed = false := by
  refine ⟨by decide, by decide, ⟨rfl, rfl, rfl, by decide, fun m h k => ?_⟩, rfl, fun n h k => ?_⟩
  · exact absurd k (by omega)
  · exact absurd k (by omega)

/-- Segment A RUNNING and READY, its one record at the head of the active part. -/
def ready (r : Record) (left : Nat) : Part :=
  onLine (one r) .running { Engine.reset with active := [⟨0, false⟩], cycleTimer := some left }

theorem witness_ExchangeStartServesHead (left : Nat) (r : Record) :
    (ready r left).resetLow = false ∧ ((ready r left).engine .a).state = .ready ∧
      ((ready r left).control .a).state = .running ∧ ((ready r left).engine .a).markOwed = false ∧
      ((ready r left).engine .a).stepsDue = 0 ∧ ((ready r left).engine .a).toTable = [] ∧
      ((ready r left).control .a).stationTeardowns = 0 ∧ ((ready r left).control .a).recordTeardowns = [] ∧
      ((ready r left).engine .a).cycleClosed = false ∧ ((ready r left).engine .a).active = ⟨0, false⟩ :: [] ∧
      ((ready r left).engine .a).cycleTimer = some left ∧ (ready r left).record 0 = some r := by
  refine ⟨rfl, rfl, rfl, rfl, rfl, rfl, rfl, rfl, rfl, rfl, rfl, rfl⟩

/-- The exchange that fits exactly, and the one that is one cycle too long. -/
theorem witness_ExchangeFits :
    SegmentConfig.reset.reservation .fetch input.length ≤ 4160 - 0 ∧
      4159 - 0 < SegmentConfig.reset.reservation .fetch input.length ∧ input.kind = .input := by
  decide

theorem witness_ProbesStart :
    (let s := onLine vacant .running { Engine.reset with cycleTimer := some 4760, probeCursor := 30 };
      s.resetLow = false ∧ (s.engine .a).active = [] ∧ (s.engine .a).probeTaken = false ∧
        (s.engine .a).probeCursor = 30 ∧ (s.stationState .a 30).probed = true ∧
        (s.control .a).config.bits (190 + 48) ≤ 4760 - 0 ∧ 4760 - 1 < (s.control .a).config.bits (190 + 48)) ∧
      (∀ m : Nat, 1 ≤ m → m ≤ 30 → (30 + 30 - 30) % 30 ≤ (m + 30 - 30) % 30) ∧
      (let s := scanning 30 .reset;
        (s.engine .a).state = .ready ∧ (s.control .a).scanPosition = some 30 ∧ (s.stationState .a 30).probed = true ∧
          ∀ m, 30 ≤ m → m < 30 → (s.stationState .a m).probed = false) ∧
      let s := (scanning 30 .reset).withStation .a 30 ⟨.barred, none, 0⟩
      (s.control .a).scanPosition = some 30 ∧ ∀ n, 30 ≤ n → n ≤ 30 → (s.stationState .a n).probed = false := by
  refine ⟨by decide, fun m _ _ => by simp, ⟨rfl, rfl, by decide, fun m h k => ?_⟩, rfl, fun n h k => ?_⟩
  · exact absurd k (by omega)
  · obtain rfl : n = 30 := by omega
    decide

/-! ### Witnesses: the exchange on the line -/

theorem witness_ReservationAndSettling : (busy .fetch).exchange = some (serving .fetch) := rfl

theorem witness_TimersEndTheExchange :
    let engine (st : EngineState) := (onLine (one input) .running { busy .fetch with state := st }).engine .a
    (engine (.wait 5)).state = .wait 5 ∧ (engine (.reply 401 0 [9])).state = .reply 401 0 [9] ∧
      SegmentConfig.reset.bits 20 < 401 ∧ (engine (.reply 0 0 [])).state = .reply 0 0 [] := by
  decide

/-- SxRX at 1 Mbit/s, 20 CLK cycles a bit. -/
def lineOf (bits : List Bool) : List Bool := bits.flatMap (List.replicate 20)

/-- R56: a character sent is received, with its stop bit. -/
theorem test_character_received :
    ([0, 0x53, 0xA6, 0xFF] : List Byte).all (fun b =>
      let line := lineOf (characterBits b)
      BitRate.mbit1.startBit true line && BitRate.mbit1.byte line == b && BitRate.mbit1.stopBit line &&
        !BitRate.mbit1.stopBit (lineOf ((characterBits b).take 9 ++ [false]))) = true := by
  decide +kernel

/-- R56, R67: a pulse that is 0 up to the cycle of the middle is a start bit; one cycle less, and a line that stood at 0, are
none. Noise in the window does not hide the start bit after it. -/
theorem test_short_pulse :
    let pulse (n : Nat) : List Bool := List.replicate n false ++ [true]
    BitRate.mbit1.firstStart (true :: pulse 11) = some 0 ∧ BitRate.mbit1.firstStart (true :: pulse 10) = none ∧
      BitRate.mbit1.firstStart (pulse 30) = none ∧
      BitRate.mbit1.firstStart (true :: pulse 10 ++ pulse 3 ++ pulse 20) = some 15 := by
  decide

theorem witness_ReplyIsReceived :
    let s := onLine (one input) .running { busy .fetch with state := .reply 1600 600 [9, 4, 2] }
    s.resetLow = false ∧ (s.engine .a).exchange = some (serving .fetch) ∧
      (s.engine .a).state = .reply 1600 600 [9, 4, 2] ∧ 600 ≤ 1600 ∧
      ([9, 4, 2] : List Byte).length = 3 ∧ (serving .fetch).kind.replyPayload 2 < (3 : Byte).toNat ∧
      ¬(serving .fetch).kind.replyPayload 2 < (2 : Byte).toNat ∧
      (∃ n, ([9, 4, 2, 0, 1, 2] : List Byte)[3]? = some n ∧ 6 = 6 + n.toNat) ∧
      ((onLine (one input) .running (busy .fetch)).engine .a).state = .wait 100 := by
  refine ⟨rfl, rfl, rfl, by decide, rfl, by decide, by decide, ⟨0, rfl, rfl⟩, rfl⟩

/-- The levels that `ReplyIsReceived` names: a byte of the clauses on the line with each stop bit, a start bit at the window's
last cycle with none before it, and levels without one. -/
theorem witness_LineCarries (b : Byte) (stop : Bool) (hb : b ∈ ([0, 2, 3] : List Byte)) :
    let line := lineOf ((characterBits b).take 9 ++ [stop])
    let late := List.replicate 101 true ++ List.replicate 20 false
    SegmentConfig.reset.bitRate = .mbit1 ∧ (∀ t, t ≤ 10 → line.getD t true = false) ∧
      (∀ k, k < 8 → b.getLsbD k = line.getD ((k + 1) * 20 + 10) true) ∧ line.getD (9 * 20 + 10) true = stop ∧
      (late.getD 100 true = true ∧ ∀ d, d ≤ 10 → late.getD (101 + d) true = false) ∧
      (∀ u, u < 100 → late.getD (u + 1 + 0) true ≠ false) ∧
      ∀ t, ([] : List Bool).getD (t + 1 + 0) true ≠ false := by
  refine ⟨rfl, ?_, ?_, ?_, by decide +kernel, by decide +kernel, by simp⟩ <;> revert b stop <;> decide +kernel

/-- DATA of two bytes from station 4, object 2, with its check. -/
theorem witness_ReplyIsJudged :
    let body : List Byte := [9, 4, 2, 2] ++ [7, 8]
    (2 : Byte).toNat = ([7, 8] : List Byte).length ∧
      be16 (check body).toNat = [0x54, 0x63] ∧ 0x54 * 256 + 0x63 = (check body).toNat ∧
      judge (serving .fetch) (body ++ [0x54, 0x63]) = .data [7, 8] ∧
      judge (serving .store) (body ++ [0x54, 0x63]) = .error .frameError := by
  decide +kernel

/-- The first bytes of the four transactions of Port 0, and the two address bytes of Port 1 at ADR low. -/
theorem test_first_bytes :
    [[0xA1, 7], [0xA2, 7], [0xA3, 7], [0x55, 7], []].map port0Transaction =
        [some (.submit (.whole [7])), some (.collect (.whole 1)), some (.poll (.whole 1)),
          some (.unknownOperation 0x55 (.whole 1)), none] ∧
      port1Transfer 0x9C [7] .stop 1 = .writeTransfer 0x4E [7] .stop ∧
      port1Transfer 0x9D [7] .stop 1 = .readTransfer 0x4E 1 := by
  decide

/-! ### Witnesses: outcomes -/

/-- An outcome for slot 0, the only one waiting. -/
def judged (s : Part) (st : SegmentState) (k : ExchangeKind) (result : ExchangeResult) : Part :=
  onLine s st { Engine.reset with toTable := [⟨serving k, result, none⟩], toStations := [⟨serving k, result, none⟩] }

/-- The hypotheses that the statements about outcomes share. -/
theorem witness_outcome (r : Record) (st : SegmentState) (k : ExchangeKind) (result : ExchangeResult)
    (h : r.segment = .a ∧ r.station = 4) :
    let s := judged (one r) st k result
    s.resetLow = false ∧ (s.engine .a).toTable = [⟨serving k, result, none⟩] ∧ (serving k).slot = some 0 ∧
      s.record 0 = some r ∧ s.stationState r.segment r.station = .present := by
  rw [h.1, h.2]
  exact ⟨rfl, rfl, rfl, rfl, rfl⟩

/-- The standing that an outcome kept, and the station's as it is. -/
theorem witness_PresentFor :
    let s := judged (at4 (one input) .absent) .off .fetch .accept
    s.PresentFor ⟨serving .fetch, .accept, some true⟩ input ∧ ¬s.PresentFor ⟨serving .fetch, .accept, none⟩ input ∧
      ¬(one input).PresentFor ⟨serving .fetch, .accept, some false⟩ input ∧
      (one input).PresentFor ⟨serving .fetch, .accept, none⟩ input :=
  ⟨Or.inl rfl, by unfold Part.PresentFor; decide, by unfold Part.PresentFor; decide, Or.inr ⟨rfl, by decide⟩⟩

theorem witness_GoodOutcomesApply :
    0 < (one input).slots.length ∧ input.state.served = true ∧ (serving .fetch).kind = .fetch ∧ (serving .store).kind = .store := by
  decide

theorem witness_FailuresApply :
    output.state.served = true ∧ output.supersedes (serving .store) = false ∧
      output.errorCount + 1 < output.retryBudget ∧ { output with errorCount := 2 : Record }.retryBudget ≤ 2 + 1 := by
  decide

theorem witness_PhaseResultsApply (phase : GuardPhase) :
    (opened phase).state.served = true ∧ (opened phase).guardPhase = phase ∧
      (∀ k : ExchangeKind, k.guarded = true → (opened phase).guardToken = (serving k).token) ∧
      (opened phase).guardToken = some 9 ∧ (opened phase).staged = some [1, 2] := by
  refine ⟨rfl, rfl, fun k hk => ?_, rfl, rfl⟩
  cases k <;> first | rfl | exact absurd hk (by decide)

/-- A HALTED record, a record of a station that has left, and a write that a RESTART superseded. -/
theorem witness_OutcomesAsideApply :
    ({ opened .stage with state := .halted } : Record).state.active = true ∧
      (judged (at4 (one output) .silent) .running .store .accept).stationState .a 4 ≠ .present ∧
      ¬(guarded.guardPhase = .stage ∧ guarded.guardToken = (serving .stage).token) ∧ guarded.state.active = true := by
  decide

theorem witness_RetiringOutcomesApply :
    let r := { opened .verify with state := .retiring }
    r.state = .retiring ∧ r.kind = .guarded ∧ r.silentRetire = false ∧ (serving .verify).owedCancel = false ∧
      ({ serving .cancel with owedCancel := true } : Exchange).owedCancel = true ∧
      ({ input with state := .retiring, silentRetire := true } : Record).silentRetire = true := by
  decide

/-- Two owed CANCELs ahead of a record that is carried. -/
def threeHeld : Part :=
  { onLine (one input) .running { Engine.reset with held := [0, 1, 2] } with
    slots := [some { opened .cancel with state := .retiring }, some { opened .cancel with state := .retiring },
      some input, some (opened .verify)] }

theorem witness_OwedCancelPlaced :
    (threeHeld.engine .a).held = [0, 1] ++ [2] ∧ threeHeld.retiringSlot 0 = true ∧ threeHeld.retiringSlot 1 = true ∧
      threeHeld.retiringSlot 2 = false ∧ ((threeHeld.placeOwedCancel .a 3).engine .a).held = [0, 1, 3, 2] := by
  decide

theorem witness_StationOutcomesApply :
    let s := judged (one input) .running .fetch .timeout
    (s.engine .a).toStations = [⟨serving .fetch, .timeout, none⟩] ∧ (serving .fetch).kind ≠ .probe ∧
      s.station .a 4 = some ⟨.present, some ⟨1, 1⟩, 0⟩ ∧ 0 + 1 < (s.control .a).config.silenceLimit ∧
      (s.control .a).config.silenceLimit ≤ 3 + 1 := by
  decide

/-- A PROBE of station 4. -/
def probing : Exchange := probeOf .reset 4

theorem witness_ProbeOutcomesApply :
    let s := onLine (at4 (one input) .silent) .running
      { Engine.reset with toStations := [⟨probing, .ident ⟨2, 1⟩, none⟩] }
    s.resetLow = false ∧ (s.engine .a).toStations = [⟨probing, .ident ⟨2, 1⟩, none⟩] ∧ probing.kind = .probe ∧
      s.station .a probing.station = some ⟨.silent, some ⟨1, 1⟩, 0⟩ ∧
      (at4 (one input) .absent).stationState .a probing.station = .absent := by
  decide

/-! ### Witnesses: the segment's life -/

theorem witness_SettleTimerAndSupplyFault :
    (let s := (onLine vacant .powering .reset).updateControl .a fun c => { c with settleTimer := some 7 };
      s.resetLow = false ∧ (s.control .a).state = .powering ∧ (s.control .a).settleTimer = some 7 ∧
        (s.stationState .a 1).probed = true ∧ (s.engine .a).state = .ready) ∧
      (∀ n, 1 ≤ n → n ≤ 30 →
        (((vacant.withSeg .a { vacant.seg .a with stations := List.replicate 30 ⟨.barred, none, 0⟩ }).stationState .a
          n).probed = false)) ∧
      ((onLine vacant .held .reset).control .a).state ≠ .off ∧
      ((onLine vacant .held .reset).control .a).state ≠ .fault := by
  refine ⟨by decide, fun n _ k => ?_, by decide, by decide⟩
  exact (by decide : ∀ n, n < 31 → ((vacant.withSeg .a { vacant.seg .a with
    stations := List.replicate 30 ⟨.barred, none, 0⟩ }).stationState .a n).probed = (n == 0)) n (by omega) ▸ by simp; omega

theorem witness_TeardownsAct :
    let s := (judged (one output) .off .store .accept).updateControl .a fun c =>
      { c with stationTeardowns := 1, recordTeardowns := [some (serving .store)] }
    s.resetLow = false ∧ (s.control .a).stationTeardowns = 0 + 1 ∧
      (s.control .a).recordTeardowns = some (serving .store) :: [] := by
  decide

/-- R175: two IDENTs taken in one teardown, the higher slot's first, put the slots on the list in ascending order. -/
theorem test_teardown_lists_ascend :
    let ident (k : Nat) : ExchangeOutcome := ⟨probeOf .reset k, .ident ⟨1, 1⟩, none⟩
    let s := ({ onLine vacant .off { Engine.reset with toStations := [ident 1, ident 2] } with
      slots := [some { input with station := 2 }, some { input with station := 1 }] }).updateControl .a fun c =>
        { c with stationTeardowns := 1 }
    (after (.stationTeardown .a) s).port0.attention = [0, 1] := by
  decide +kernel

/-- R175: an outcome taken in RECORD_TEARDOWN raises CHANGED and FRESH on slot 1, and the teardown STALE on slot 0: one claim,
in ascending order. -/
theorem test_record_teardown_lists_ascend :
    let o : ExchangeOutcome := ⟨{ serving .fetch with slot := some 1 }, .data [1, 2], none⟩
    let s := ({ onLine (one input) .off { Engine.reset with toTable := [o] } with
      slots := [some input, some { input with tag := 6, state := .stale }] }).updateControl .a fun c =>
        { c with recordTeardowns := [none] }
    (after (.recordTeardown .a) s).port0.attention = [0, 1] ∧ (s.takeOutcome o true).port0.attention = [1] := by
  decide +kernel

/-- R112: a WRITE taken during a STORE whose ACCEPT is lost is sent once more after the ACCEPT of the repeat; a WRITE taken
after the error is not. -/
theorem test_write_during_lost_accept (during : Bool) :
    let r := { output with dirty := true, rewritten := during }
    let repeated := (r.failure (.error .checkError)).record.started
    let accepted := repeated.storeAccepted.restoreMissed
    repeated.rewritten = false ∧ repeated.dirty = false ∧ accepted.dirty = during ∧ accepted.rewritten = false ∧
      accepted.missed = false ∧ r.storeAccepted.restoreMissed.dirty = true := by
  revert during
  decide

/-- R141: SEGMENT_CONFIGURE stands SUBMITTED until the Station Directory has taken its part of the teardown. -/
theorem test_configure_waits :
    let s := (asked vacant .segmentConfigure 0 [0, 1, 0, 20, 48, 20, 1]).part.updateControl .a fun c =>
      { c with stationTeardowns := 1 }
    after (.segmentConfigure .port0) s = s ∧
      ((run s [.stationTeardown .a, .segmentConfigure .port0]).control .a).config.silenceLimit = 1 := by
  decide +kernel

/-- R168: the outcome of a RETIRING record that owes a cancel, taken in the teardown, leaves phase CANCEL, as before it. -/
theorem test_teardown_takes_owed_cancel :
    let s := (judged (one { opened .stage with state := .retiring }) .off .stage .accept).updateControl .a fun c =>
      { c with recordTeardowns := [none] }
    ((after (.recordTeardown .a) s).record 0).map (fun r => (r.state, r.condition, r.guardPhase, r.reasons.retired)) =
      some (.retired, .cancelUnconfirmed, .cancel, true) := by
  decide +kernel

/-! ### Witnesses: the invariants -/

/-- A table of one INPUT record, both segments OFF: a state in which the invariants hold, and which steps. -/
theorem witness_SegmentsStayCoherent : (one input).SegmentsCoherent ∧ ∃ t, step ⟨one input, []⟩ = .next t := by
  refine ⟨fun g => ?_, _, rfl⟩
  cases g <;>
    exact ⟨rfl, nofun, by decide, by decide, by decide, nofun, nofun, fun _ => ⟨rfl, rfl, ⟨rfl, rfl⟩, rfl, rfl, rfl⟩⟩

theorem input_sound : input.Sound where
  tag := by decide
  station := by decide
  object := by decide
  length := by decide
  period := by decide
  periodKind := by decide
  age := by decide
  budget := by decide
  errors := by decide
  belowBudget := by decide
  countdown := by decide
  countdownBelow := by rintro k ⟨⟩; decide
  phase := by decide
  freshness := by decide
  freshnessRange := by rintro k ⟨⟩; decide
  guardKind := by decide
  openWrite := by decide
  counter := by decide
  counterRange := nofun
  tokenRange := nofun
  guardedOnly := fun _ => ⟨rfl, rfl⟩
  value := by decide
  valueLength := nofun
  stagedLength := nofun
  silent := by decide
  missed := by decide
  notice := by decide

theorem witness_RecordsStaySound :
    (asked (one input) .purge 0 []).part.QueuesSound ∧ (asked (one input) .purge 0 []).part.RecordsSound := by
  refine ⟨witness_PurgeFreesOwned.2.1, ⟨fun n r hr => ?_, fun p f h => ?_, fun g x n r h => ?_, fun g o n r b h => ?_⟩⟩
  · rw [(record_of_one (r := input) rfl hr).2]
    exact input_sound
  · cases p
    · cases h
      decide
    · cases h
  · cases g <;> cases h
  · cases g <;> cases h

/-- The part in reset, RESETn low. -/
def held : Part := { Part.reset with resetLow := true }

theorem held_station {g : Segment} {n : Nat} {e : Station} (h : held.station g n = some e) : e = .reset := by
  unfold Part.station at h
  split at h
  · cases h
  · exact List.eq_of_mem_replicate (show e ∈ List.replicate 30 Station.reset by
      cases g <;> exact List.mem_of_getElem? h)

theorem witness_KeysAndDirectoriesStaySound :
    (one input).KeysUnique ∧ held.DirectoriesSound ∧ held.SegmentsCoherent ∧ held.CountersSound := by
  refine ⟨keys_of_one (r := input) rfl, ⟨List.length_replicate .., fun g => by cases g <;> rfl,
    fun g => by cases g <;> decide, fun g n e he h => ?_, fun g n e he _ => ?_⟩, fun g => ?_,
    ⟨fun g => by cases g <;> decide, fun g n e he => ?_, fun g n e he _ => ?_, fun g n e he h => ?_,
      fun g _ _ => ⟨by cases g <;> rfl, fun n e he => ?_⟩⟩⟩
  · rw [held_station he] at h
    exact absurd h (by decide)
  · rw [held_station he]
    rfl
  · cases g <;>
      exact ⟨rfl, nofun, by decide, by decide, by decide, nofun, nofun, fun _ => ⟨rfl, rfl, ⟨rfl, rfl⟩, rfl, rfl, rfl⟩⟩
  · rw [held_station he]
    exact Nat.zero_le _
  · rw [held_station he]
    cases g <;> decide
  · rw [held_station he] at h
    exact absurd h (by decide)
  · rw [held_station he]
    exact ⟨Or.inl rfl, rfl⟩

theorem witness_ListsStaySound : (noticed { input with reasons := ⟨true, false, false, false, false, false, false,
    false⟩ }).ListsSound := by
  intro p
  cases p
  · refine ⟨by decide, fun n hn => ?_⟩
    have h : n = 0 := List.mem_singleton.mp hn
    subst h
    exact ⟨_, rfl, rfl, by decide⟩
  · exact ⟨List.nodup_nil, nofun⟩

theorem witness_QueuesStaySound : (asked (one input) .purge 0 []).part.QueuesSound := witness_PurgeFreesOwned.2.1

end Sys2Proof.Tests
end

section
/-! SUPPORT. Steps and claims: how an invariant goes from the meaning of one command to every step. -/

namespace Sys2Proof.Machine

/-- What a step can do: the part idles, or the command at the front of the queue is taken. -/
theorem step_cases {s t : State} (h : step s = .next t) :
    t = s ∨ ∃ c rest, exec c { s with pending := rest } = .next t := by
  rcases hq : s.pending with _ | ⟨c, rest⟩
  · rw [step_idle s hq] at h
    cases h
    exact Or.inl rfl
  · rw [step_front s c rest hq] at h
    exact Or.inr ⟨c, rest, h⟩

/-- An invariant that every command keeps is kept by every step. -/
theorem step_keeps {P Q : Part → Prop} (idle : ∀ s, P s → Q s)
    (taken : ∀ (c : Instr) (s t : State), P s.part → exec c s = .next t → Q t.part) {s t : State} (hs : P s.part)
    (h : step s = .next t) : Q t.part := by
  obtain rfl | ⟨c, rest, hc⟩ := step_cases h
  · exact idle _ hs
  · exact taken c { s with pending := rest } t hs hc

/-- What a claim can do: it is not taken, or the part becomes what the claim makes of it. -/
theorem State.claim_cases {s t : State} {f : Part → Part} (h : s.claim f = .next t) :
    t.part = s.part ∨ t.part = f s.part := by
  cases h
  cases s.part.resetLow <;> simp

/-- What holds of the part as it is and as the claim makes it, holds after the claim. -/
theorem State.claim_keeps {P : Part → Prop} {s t : State} {f : Part → Part} (hs : P s.part) (hf : P (f s.part))
    (h : s.claim f = .next t) : P t.part := by
  obtain e | e := State.claim_cases h
  · exact e ▸ hs
  · exact e ▸ hf

/-- What the taking of a request can do: nothing, or the owner's part with its answer in the port. -/
theorem Part.takeRequest_cases (s : Part) (p : Port) (c : RequestCode) (owner : RequestFrame → Part × Answer) :
    s.takeRequest p c owner = s ∨ ∃ f, (s.port p).buffer = .submitted f ∧ f.code = c.code ∧
      s.takeRequest p c owner = (owner f).1.answer p f (owner f).2.status (owner f).2.results := by
  unfold Part.takeRequest
  split
  · next f hf =>
    split
    · next hc => exact Or.inr ⟨f, hf, hc, rfl⟩
    · exact Or.inl rfl
  · exact Or.inl rfl
  · exact Or.inl rfl

/-- What holds of the part, and of the owner's part with its answer, holds after a request is taken. -/
theorem Part.takeRequest_keeps {P : Part → Prop} {s : Part} {p : Port} {c : RequestCode}
    {owner : RequestFrame → Part × Answer} (hs : P s)
    (hf : ∀ f, (s.port p).buffer = .submitted f → P ((owner f).1.answer p f (owner f).2.status (owner f).2.results)) :
    P (s.takeRequest p c owner) := by
  rcases s.takeRequest_cases p c owner with e | ⟨f, hb, -, e⟩ <;> rw [e]
  · exact hs
  · exact hf f hb

/-- SEGMENT_CONFIGURE is taken as any request, or waits. -/
theorem Part.takeConfigure_keeps {P : Part → Prop} {s : Part} {p : Port} (hs : P s)
    (hf : ∀ f, (s.port p).buffer = .submitted f → s.configureWaits f = false →
      P ((s.ownConfigure f).1.answer p f (s.ownConfigure f).2.status (s.ownConfigure f).2.results)) :
    P (s.takeConfigure p) := by
  unfold Part.takeConfigure
  split
  · next f hb =>
    split
    · exact hs
    · next hw =>
      refine Part.takeRequest_keeps (P := P) hs fun f' hb' => ?_
      have : f = f' := by simpa [hb] using hb'
      exact this ▸ hf f hb (Bool.eq_false_iff.mpr hw)
  · exact hs
  · exact hs

/-- A SEGMENT_COMMAND leaves the part with an answer alone, or does what its command does to a segment. -/
theorem Part.takeCommand_keeps {P : Part → Prop} {s : Part} {p : Port} {c : SegmentCommand}
    {run : Segment → Part × Answer} (hs : P s)
    (answered : ∀ (u : Part) (f : RequestFrame) (a : Answer), P u → P (u.answer p f a.status a.results))
    (hf : ∀ g, P (run g).1) : P (s.takeCommand p c run) := by
  unfold Part.takeCommand
  split
  · split
    · refine Part.takeRequest_keeps (P := P) hs fun f _ => answered _ _ _ ?_
      unfold Part.ownCommand
      split
      · split
        · exact hs
        · split
          · exact hs
          · exact hf _
      · exact hs
    · exact hs
  · exact hs
  · exact hs

/-- A station request leaves the part as it is, or does to the station it names what its run does. -/
theorem Part.onStation_keeps {P : Part → Prop} {s : Part} {f : RequestFrame}
    {run : Segment → Nat → Station → Part × Answer} (hs : P s)
    (hf : ∀ g n e, s.station g n = some e → P (run g n e).1) : P (s.onStation f run).1 := by
  unfold Part.onStation
  split
  · exact hs
  · next g n _ =>
    split
    · exact hs
    · next e he => exact hf g n e he

/-- A request on a record leaves the part as it is, or does what its run does to the record it finds. -/
theorem Part.onOwned_keeps {P : Part → Prop} {s : Part} {p : Port} {tag : Nat} {f : Nat → Record → Part × Answer}
    (hs : P s) (hf : ∀ n r, s.Binds tag n r → P (f n r).1) : P (s.onOwned p tag f).1 := by
  unfold Part.onOwned
  split
  · exact hs
  · next n r h => exact hf n r (Part.findOwned_ok h).1

/-! ### Reset -/

/-- Settles O3: the fields of the reset state, read off. -/
theorem resetState : Obligations.ResetState := by
  refine ⟨rfl, rfl, fun p => ?_, fun g => ?_⟩
  · cases p <;> exact ⟨rfl, rfl, rfl, rfl, rfl, rfl, rfl⟩
  · cases g <;> exact ⟨rfl, rfl, rfl, rfl, rfl, rfl, rfl, rfl, rfl, rfl, rfl, rfl, rfl, rfl, rfl, rfl, rfl⟩

/-- R197: at the rise of RESETn the part samples ADR. -/
theorem Part.riseFromReset_low (s : Part) (adr : Bool) (h : s.resetLow = true) : s.riseFromReset adr =
    { s with resetLow := false, port1Address := Config.portAddress adr } := if_pos h

/-- RESETn that is high cannot rise (log 3). -/
theorem Part.riseFromReset_high (s : Part) (adr : Bool) (h : s.resetLow = false) : s.riseFromReset adr = s := by
  simp [Part.riseFromReset, h]

/-- Settles O4: the rise of RESETn by its level, RESET and POWER_ON by the one state that both enter. -/
theorem resetClearsPart : Obligations.ResetClearsPart := by
  refine ⟨fun adr s => ⟨fun h => ?_, fun h => ?_⟩, fun s => ?_⟩
  · exact congrArg (fun t => Host.Outcome.next (s.with t)) (s.part.riseFromReset_low adr h)
  · exact congrArg (fun t => Host.Outcome.next (s.with t)) (s.part.riseFromReset_high adr h)
  · refine ⟨s.part.heldInReset, rfl, rfl, rfl, rfl, rfl, rfl, fun p => ?_, fun g => ?_⟩
    · cases p <;> rfl
    · cases g <;> exact ⟨rfl, rfl, rfl⟩

/-- Settles O5: every command but those four is a claim, and no claim is taken while RESETn is low. -/
theorem nothingTakenInReset : Obligations.NothingTakenInReset := by
  intro c s low notReset notPowerOn notRelease notSupply
  cases c
  case reset => exact absurd rfl notReset
  case powerOn => exact absurd rfl notPowerOn
  case resetRelease adr => exact absurd rfl (notRelease adr)
  case supplyFault g level => exact absurd rfl (notSupply g level)
  all_goals
    dsimp only [exec]
    exact s.claim_inReset _ low

/-! ### Requests that read the table -/

/-- A claim that takes a standing request, whose owner changes nothing. -/
theorem State.claim_reading (s : State) (p : Port) (c : RequestCode) (f : RequestFrame)
    (answer : Part → RequestFrame → Answer) (h : s.part.Standing p c f) {a : Answer} (ha : answer s.part f = a) :
    (s.claim fun s => s.takeRequest p c fun f => (s, answer s f)) =
      .next (s.with (s.part.answer p f a.status a.results)) :=
  ha ▸ s.claim_request p c f (fun s f => (s, answer s f)) h

theorem Part.answerLookup_refused {s : Part} {f : RequestFrame} {a : Answer} (h : s.findTag f.tag = .error a) :
    s.answerLookup f = a := by
  simp [Part.answerLookup, h]

theorem Part.answerLookup_found {s : Part} {f : RequestFrame} {n : Nat} {r : Record}
    (h : s.findTag f.tag = .ok (n, r)) : s.answerLookup f = ⟨.done, s.descriptor n r⟩ := by
  simp [Part.answerLookup, h]

/-- Settles O6: by what the tag names. -/
theorem lookupAnswers : Obligations.LookupAnswers := by
  intro p s f h
  refine ⟨fun h0 => ?_, fun h0 hu => ?_, fun n r hk hb => ?_⟩
  · exact s.claim_reading p _ f Part.answerLookup h (Part.answerLookup_refused (h0 ▸ s.part.findTag_zero))
  · exact s.claim_reading p _ f Part.answerLookup h (Part.answerLookup_refused (Part.findTag_unbound h0 hu))
  · have found : exec (.lookup p) s = .next (s.with (s.part.answer p f .done (s.part.descriptor n r))) :=
      s.claim_reading p _ f Part.answerLookup h (Part.answerLookup_found (Part.findTag_binds hk hb))
    rw [found]
    unfold Part.descriptor
    simp only [num8, List.append_assoc, List.cons_append, List.nil_append]

theorem Part.answerRead_refused {s : Part} {f : RequestFrame} {a : Answer} (h : s.findTag f.tag = .error a) :
    s.answerRead f = a := by
  simp [Part.answerRead, h]

/-- R24: READ of a bound tag with a selector that names no area. -/
theorem Part.answerRead_badSelector {s : Part} {f : RequestFrame} {n : Nat} {r : Record} {selector : Byte}
    (h : s.findTag f.tag = .ok (n, r)) (ha : f.args = [selector]) (h0 : selector ≠ 0) (h1 : selector ≠ 1) :
    s.answerRead f = .badField 0 := by
  simp only [Part.answerRead, h, ha]
  split
  · next e => exact absurd (List.cons.inj e).1 h0
  · next e => exact absurd (List.cons.inj e).1 h1
  · rfl

/-- R24: READ of a bound tag with the selector of an area. -/
theorem Part.answerRead_area {s : Part} {f : RequestFrame} {n : Nat} {r : Record} {selector : Byte}
    {area : Option (List Byte)} (h : s.findTag f.tag = .ok (n, r)) (ha : f.args = [selector])
    (hs : (selector = 0 ∧ area = r.value) ∨ (selector = 1 ∧ area = r.staged)) :
    s.answerRead f = ⟨.done, r.readResults area⟩ := by
  obtain ⟨rfl, rfl⟩ | ⟨rfl, rfl⟩ := hs <;> simp [Part.answerRead, h, ha]

/-- R24, R191: the results of READ, item by item. -/
theorem Record.readResults_eq (r : Record) (area : Option (List Byte)) :
    r.readResults area = [r.state.code, r.condition.code, BitVec.ofNat 8 r.age] ++
      (if r.kind.outputClass then [1, if r.dirty then 1 else 0] else [0, 0]) ++ valueArea area := by
  cases hk : r.kind.outputClass <;> simp [Record.readResults, num8, optional, yesNo, hk]

/-- Settles O8: by what the tag names, then by the selector. -/
theorem readAnswers : Obligations.ReadAnswers := by
  intro p s f h
  refine ⟨fun h0 => ?_, fun h0 hu => ?_, fun n r selector hk hb ha => ⟨fun hsel => ?_, fun area harea => ?_⟩⟩
  · exact s.claim_reading p _ f Part.answerRead h (Part.answerRead_refused (h0 ▸ s.part.findTag_zero))
  · exact s.claim_reading p _ f Part.answerRead h (Part.answerRead_refused (Part.findTag_unbound h0 hu))
  · exact s.claim_reading p _ f Part.answerRead h
      (Part.answerRead_badSelector (Part.findTag_binds hk hb) ha hsel.1 hsel.2)
  · have := s.claim_reading p _ f Part.answerRead h (Part.answerRead_area (Part.findTag_binds hk hb) ha harea)
    rw [Record.readResults_eq] at this
    exact this

end Sys2Proof.Machine
end

section
/-! SUPPORT. The Tag Directory (R20, R23). -/

namespace Sys2Proof.Machine

theorem mem_insertTag (e x : Nat × Nat) (d : List (Nat × Nat)) : x ∈ insertTag e d ↔ x = e ∨ x ∈ d := by
  induction d with
  | nil => simp [insertTag]
  | cons y d ih =>
    unfold insertTag
    split
    · simp
    · simp only [List.mem_cons, ih]
      tauto

/-- R20: an entry joins the Tag Directory in ascending tag order. -/
theorem sorted_insertTag (e : Nat × Nat) (d : List (Nat × Nat)) (h : d.Pairwise (·.1 ≤ ·.1)) :
    (insertTag e d).Pairwise (·.1 ≤ ·.1) := by
  induction d with
  | nil => simp [insertTag]
  | cons y d ih =>
    obtain ⟨hy, hd⟩ := List.pairwise_cons.mp h
    unfold insertTag
    split
    · next hlt =>
      refine List.pairwise_cons.mpr ⟨fun x hx => ?_, h⟩
      obtain rfl | hx := List.mem_cons.mp hx
      · exact hlt.le
      · exact hlt.le.trans (hy x hx)
    · next hge =>
      refine List.pairwise_cons.mpr ⟨fun x hx => ?_, ih hd⟩
      obtain rfl | hx := (mem_insertTag e x d).mp hx
      · exact Nat.not_lt.mp hge
      · exact hy x hx

/-- R20: the entries made for some slots: one for each that holds a record, with its tag. -/
theorem mem_foldr_insertTag (s : Part) (slots : List Nat) (e : Nat × Nat) :
    e ∈ slots.foldr (fun n d => (s.record n).elim d fun r => insertTag (r.tag, n) d) [] ↔
      e.2 ∈ slots ∧ ∃ r, s.record e.2 = some r ∧ r.tag = e.1 := by
  induction slots with
  | nil => simp
  | cons n slots ih =>
    obtain ⟨tag, m⟩ := e
    rcases hr : s.record n with _ | r
    · simp only [List.foldr_cons, hr, Option.elim_none, ih, List.mem_cons]
      constructor
      · rintro ⟨hm, h⟩
        exact ⟨Or.inr hm, h⟩
      · rintro ⟨rfl | hm, q, hq, ht⟩
        · simp [hr] at hq
        · exact ⟨hm, q, hq, ht⟩
    · simp only [List.foldr_cons, hr, Option.elim_some, mem_insertTag, ih, List.mem_cons, Prod.mk.injEq]
      constructor
      · rintro (⟨rfl, rfl⟩ | ⟨hm, h⟩)
        · exact ⟨Or.inl rfl, r, hr, rfl⟩
        · exact ⟨Or.inr hm, h⟩
      · rintro ⟨rfl | hm, q, hq, ht⟩
        · rw [hr] at hq
          cases hq
          exact Or.inl ⟨ht.symm, rfl⟩
        · exact Or.inr ⟨hm, q, hq, ht⟩

theorem sorted_foldr_insertTag (s : Part) (slots : List Nat) :
    (slots.foldr (fun n d => (s.record n).elim d fun r => insertTag (r.tag, n) d) []).Pairwise (·.1 ≤ ·.1) := by
  induction slots with
  | nil => exact List.Pairwise.nil
  | cons n slots ih =>
    rw [List.foldr_cons]
    rcases s.record n with _ | r
    · exact ih
    · exact sorted_insertTag _ _ ih

/-- R20: the Tag Directory has one entry for each record, with its tag and its slot. -/
theorem Part.mem_tagDirectory (s : Part) (tag n : Nat) :
    (tag, n) ∈ s.tagDirectory ↔ ∃ r, s.record n = some r ∧ r.tag = tag := by
  rw [Part.tagDirectory, mem_foldr_insertTag, Part.mem_slotsWhere]
  exact ⟨fun h => h.2, fun ⟨r, hr, ht⟩ => ⟨⟨r, hr, rfl⟩, r, hr, ht⟩⟩

/-- R20: the Tag Directory is in ascending tag order. -/
theorem Part.sorted_tagDirectory (s : Part) : s.tagDirectory.Pairwise (·.1 ≤ ·.1) :=
  sorted_foldr_insertTag s _

/-- R23: where every bound tag is below the start, there is no entry at or above it. -/
theorem Part.firstFrom_none {s : Part} {start : Nat} (h : ∀ n r, s.record n = some r → r.tag < start) :
    s.firstFrom start = none := by
  rw [Part.firstFrom, List.find?_eq_none]
  rintro ⟨tag, n⟩ he
  obtain ⟨r, hr, rfl⟩ := (s.mem_tagDirectory tag n).mp he
  simpa using h n r hr

/-- R23: the first entry at or above the start is a record's, and no record's tag at or above the start is lower. -/
theorem Part.firstFrom_some {s : Part} {start tag m : Nat} (h : s.firstFrom start = some (tag, m)) :
    start ≤ tag ∧ (∃ q, s.record m = some q ∧ q.tag = tag) ∧
      ∀ n r, s.record n = some r → start ≤ r.tag → tag ≤ r.tag := by
  obtain ⟨hle, before, behind, hdir, hlow⟩ := List.find?_eq_some_iff_append.mp h
  refine ⟨by simpa using hle, (s.mem_tagDirectory tag m).mp (hdir ▸ by simp), fun n r hr hstart => ?_⟩
  have hin : (r.tag, n) ∈ before ++ (tag, m) :: behind := hdir ▸ (s.mem_tagDirectory r.tag n).mpr ⟨r, hr, rfl⟩
  have hsorted := hdir ▸ s.sorted_tagDirectory
  obtain hb | hb := List.mem_append.mp hin
  · exact absurd hstart (by simpa using hlow _ hb)
  · obtain hb | hb := List.mem_cons.mp hb
    · exact le_of_eq (congrArg Prod.fst hb).symm
    · exact (List.pairwise_cons.mp (List.pairwise_append.mp hsorted).2.1).1 _ hb

/-- R23: the record with the lowest tag at or above the start is the one found. -/
theorem Part.firstFrom_least {s : Part} {start n : Nat} {r : Record} (hk : s.KeysUnique) (hr : s.record n = some r)
    (hstart : start ≤ r.tag) (hleast : ∀ m q, s.record m = some q → start ≤ q.tag → r.tag ≤ q.tag) :
    s.firstFrom start = some (r.tag, n) := by
  rcases hf : s.firstFrom start with _ | ⟨tag, m⟩
  · have := List.find?_eq_none.mp hf _ ((s.mem_tagDirectory r.tag n).mpr ⟨r, hr, rfl⟩)
    simp [hstart] at this
  · obtain ⟨hle, ⟨q, hq, rfl⟩, hmin⟩ := Part.firstFrom_some hf
    have htag : q.tag = r.tag := Nat.le_antisymm (hmin n r hr hstart) (hleast m q hq hle)
    have hslot : m = n := by
      by_contra hne
      exact (hk m n q r hq hr hne).1 htag
    rw [htag, hslot]

/-- Settles O7: by the first entry of the Tag Directory at or above the start. -/
theorem scanFromAnswers : Obligations.ScanFromAnswers := by
  intro p s f h
  refine ⟨fun hlow => ?_, fun n r hk hr hstart hleast => ?_⟩
  · refine s.claim_reading p _ f Part.answerScan h (a := .bare .notFound) ?_
    simp [Part.answerScan, Part.firstFrom_none hlow]
  · refine s.claim_reading p _ f Part.answerScan h
      (a := ⟨.done, be16 r.tag ++ num8 n ++ [portCode r.owner, r.kind.code, r.state.code]⟩) ?_
    simp [Part.answerScan, Part.firstFrom_least hk hr hstart hleast, hr]

end Sys2Proof.Machine
end

section
/-! SUPPORT. Release of a slot (R19, R142): what it makes of the stations, the ports and the counts. -/

namespace Sys2Proof.Machine

theorem Part.updateEngine_engine_eq (s : Part) (g k : Segment) (f : Engine → Engine) :
    (s.updateEngine g f).engine k = if k = g then f (s.engine k) else s.engine k := by
  split
  · next h => rw [h, Part.updateEngine_engine]
  · next h => exact s.updateEngine_engine_ne g k f h

@[simp] theorem PortUnit.withFlag_attention (u : PortUnit) (g : Segment) (b : Bool) :
    (u.withFlag g b).attention = u.attention := by
  cases g <;> rfl

@[simp] theorem Part.updateEngine_station (s : Part) (g h : Segment) (f : Engine → Engine) (k : Nat) :
    (s.updateEngine g f).station h k = s.station h k := by
  simp [Part.station]

@[simp] theorem Part.updatePort_station (s : Part) (p : Port) (f : PortUnit → PortUnit) (h : Segment) (k : Nat) :
    (s.updatePort p f).station h k = s.station h k := by
  simp [Part.station]

@[simp] theorem Part.freeSlot_station (s : Part) (n : Nat) (h : Segment) (k : Nat) :
    (s.freeSlot n).station h k = s.station h k := by
  simp [Part.station]

@[simp] theorem Part.setFlags_station (s : Part) (g h : Segment) (k : Nat) :
    (s.setFlags g).station h k = s.station h k := by
  simp [Part.station]

theorem Part.withStation_seg_ne (s : Part) (g h : Segment) (k : Nat) (e : Station) (hg : h ≠ g) :
    (s.withStation g k e).seg h = s.seg h := by
  unfold Part.withStation
  split
  · rfl
  · exact Part.withSeg_seg_ne _ _ _ _ hg

/-- The entries of the stations after one is replaced; a station without an entry gets none. -/
theorem Part.withStation_station_eq (s : Part) (g h : Segment) (k m : Nat) (e : Station) :
    (s.withStation g k e).station h m = if h = g ∧ m = k then (s.station h m).map fun _ => e else s.station h m := by
  by_cases hg : h = g
  · subst hg
    rcases hs : s.station h k with _ | e'
    · have same : s.withStation h k e = s ∨ k ≠ 0 ∧ (s.seg h).stations.length ≤ k - 1 := by
        by_cases hk : k = 0
        · exact Or.inl (if_pos hk)
        · exact Or.inr ⟨hk, by simpa [Part.station, hk] using hs⟩
      have keeps : (s.withStation h k e).station h m = s.station h m := by
        obtain same | ⟨hk, hlen⟩ := same
        · rw [same]
        · simp [Part.withStation, Part.station, hk, List.set_eq_of_length_le hlen]
      rw [keeps]
      split
      · next hm => rw [hm.2, hs]; rfl
      · rfl
    · rw [Part.withStation_station s h k m e e' hs]
      by_cases hm : m = k <;> simp [hm, hs]
  · simp [Part.station, Part.withStation_seg_ne s g h k e hg, hg]

/-- R142: an entry whose last record is released. -/
def Station.forgotten (e : Station) : Station :=
  match e.state with
  | .silent => ⟨.absent, none, 0⟩
  | .absent => { e with identity := none }
  | .present | .barred => e

/-- R142: the entries of the stations after a release. -/
theorem Part.forgetUnused_station (s : Part) (g h : Segment) (k m : Nat) :
    (s.forgetUnused g k).station h m =
      if h = g ∧ m = k ∧ s.refCount g k = 0 then (s.station h m).map Station.forgotten else s.station h m := by
  by_cases hc : s.refCount g k = 0
  · simp only [Part.forgetUnused, hc, if_true, and_true]
    by_cases hm : h = g ∧ m = k
    · obtain ⟨rfl, rfl⟩ := hm
      simp only [and_self, if_true]
      rcases hs : s.station h m with _ | e
      · simpa using hs
      · cases he : e.state <;> simp [he, Station.forgotten, Part.withStation_station_eq, hs]
    · rw [if_neg hm]
      rcases s.station g k with _ | e
      · rfl
      · cases he : e.state <;> simp [he, Part.withStation_station_eq, hm]
  · simp [Part.forgetUnused, hc]

@[simp] theorem Part.withStation_slots (s : Part) (g : Segment) (k : Nat) (e : Station) :
    (s.withStation g k e).slots = s.slots := by
  unfold Part.withStation
  split
  · rfl
  · simp

/-- What forgetting an unused station leaves alone. -/
theorem Part.forgetUnused_keeps {P : Part → Prop} {s : Part} (g : Segment) (k : Nat)
    (withStation : ∀ e, P (s.withStation g k e)) (setFlags : ∀ e, P ((s.withStation g k e).setFlags g)) (h : P s) :
    P (s.forgetUnused g k) := by
  unfold Part.forgetUnused
  split
  · split
    · split
      · exact setFlags _
      · exact withStation _
      · exact h
      · exact h
    · exact h
  · exact h

@[simp] theorem Part.forgetUnused_slots (s : Part) (g : Segment) (k : Nat) : (s.forgetUnused g k).slots = s.slots :=
  s.forgetUnused_keeps (P := fun t => t.slots = s.slots) g k (by simp) (by simp) rfl

@[simp] theorem Part.forgetUnused_control (s : Part) (g h : Segment) (k : Nat) :
    (s.forgetUnused g k).control h = s.control h :=
  s.forgetUnused_keeps (P := fun t => t.control h = s.control h) g k (by simp) (by simp) rfl

@[simp] theorem Part.forgetUnused_attention (s : Part) (g : Segment) (k : Nat) (p : Port) :
    ((s.forgetUnused g k).port p).attention = (s.port p).attention :=
  s.forgetUnused_keeps (P := fun t => (t.port p).attention = (s.port p).attention) g k (by simp) (by simp) rfl

theorem Part.withStation_sameBus (s : Part) (g : Segment) (k : Nat) (e : Station) : s.SameBus (s.withStation g k e) := by
  unfold Part.withStation
  split
  · exact ⟨rfl, rfl, rfl, rfl, rfl, rfl, rfl⟩
  · exact ⟨by simp, by simp, by simp, by simp, by simp, by simp, by simp⟩

theorem Part.forgetUnused_sameBus (s : Part) (g : Segment) (k : Nat) : s.SameBus (s.forgetUnused g k) :=
  s.forgetUnused_keeps (P := s.SameBus) g k (s.withStation_sameBus g k) (s.withStation_sameBus g k)
    ⟨rfl, rfl, rfl, rfl, rfl, rfl, rfl⟩

/-- R142, R150: the forgetting of a station that was SILENT sets the segment's flags. -/
theorem Part.forgetUnused_flagged (s : Part) (g : Segment) (k : Nat) :
    s.PortsFlagged (s.forgetUnused g k) fun h =>
      h = g ∧ s.refCount g k = 0 ∧ ∃ e, s.station g k = some e ∧ e.state = .silent := by
  have unflagged : ∀ {t : Part} {changed : Segment → Prop}, (∀ p, t.port p = s.port p) → (∀ h, ¬changed h) →
      s.PortsFlagged t changed := fun hp hc p => by simp [hp, hc]
  unfold Part.forgetUnused
  split
  · next hc =>
    rcases hs : s.station g k with _ | e
    · exact unflagged (fun _ => rfl) (by simp)
    · cases he : e.state
      case silent =>
        intro p
        simpa [hc, he] using (s.withStation g k ⟨.absent, none, 0⟩).setFlags_flagged g p
      case absent => exact unflagged (by simp [he]) (by simp [he])
      case present => exact unflagged (by simp [he]) (by simp [he])
      case barred => exact unflagged (by simp [he]) (by simp [he])
  · next hc => exact unflagged (fun _ => rfl) (by simp [hc])

/-- R142: a station has one record less once a slot whose record is routed to it is FREE. -/
theorem Part.freeSlot_refCount {s : Part} {n : Nat} {r : Record} (h : s.record n = some r) :
    (s.freeSlot n).refCount r.segment r.station = s.refCount r.segment r.station - 1 := by
  obtain ⟨hn, he⟩ := List.getElem?_eq_some_iff.mp ((s.record_some_iff n r).mp h)
  simp [Part.refCount, List.countP_set, hn, he, Record.onStation]

/-- R19: the part once the slot of a record is FREE, out of the Due Queue and off its owner's list. -/
def Part.vacated (s : Part) (n : Nat) (r : Record) : Part :=
  ((s.dequeue r.segment n).updatePort r.owner fun u => { u with attention := u.attention.filter (· != n) }).freeSlot n

theorem Part.SameBus.trans {s t u : Part} (h : s.SameBus t) (k : t.SameBus u) : s.SameBus u := by
  obtain ⟨h1, h2, h3, h4, h5, h6, h7⟩ := h
  obtain ⟨k1, k2, k3, k4, k5, k6, k7⟩ := k
  exact ⟨k1.trans h1, k2.trans h2, k3.trans h3, k4.trans h4, k5.trans h5, k6.trans h6, k7.trans h7⟩

theorem Part.PortsFlagged.congr {s t : Part} {a b : Segment → Prop} (h : s.PortsFlagged t a) (e : ∀ g, a g ↔ b g) :
    s.PortsFlagged t b :=
  fun p => (h p).imp id fun h => h.imp id fun h => h.imp id fun h g => by rw [h g, e g]

/-- A release is the vacating of the slot, and what R142 makes of the station. -/
theorem Part.release_eq {s : Part} {n : Nat} {r : Record} (h : s.record n = some r) :
    s.release n = (s.vacated n r).forgetUnused r.segment r.station := by
  simp [Part.release, Part.vacated, h]

@[simp] theorem Part.vacated_station (s : Part) (n : Nat) (r : Record) (g : Segment) (k : Nat) :
    (s.vacated n r).station g k = s.station g k := by
  simp [Part.vacated, Part.dequeue]

theorem Part.vacated_attention (s : Part) (n : Nat) (r : Record) (p : Port) : ((s.vacated n r).port p).attention =
    if p = r.owner then (s.port p).attention.filter (· ≠ n) else (s.port p).attention := by
  split
  · next h =>
    subst h
    simp [Part.vacated, Part.dequeue, bne, beq_eq_decide]
  · next h => simp [Part.vacated, Part.dequeue, Part.updatePort_port_ne _ _ _ _ h]

theorem Part.vacated_control (s : Part) (n : Nat) (r : Record) (g : Segment) :
    (s.vacated n r).control g = s.control g := by
  simp [Part.vacated, Part.dequeue]

theorem Part.vacated_engine (s : Part) (n : Nat) (r : Record) (g : Segment) : (s.vacated n r).engine g =
    if g = r.segment then (s.engine g).remove (· == n) else s.engine g := by
  simp [Part.vacated, Part.dequeue, Part.updateEngine_engine_eq]

theorem Part.vacated_refCount {s : Part} {n : Nat} {r : Record} (h : s.record n = some r) :
    (s.vacated n r).refCount r.segment r.station = s.refCount r.segment r.station - 1 :=
  (Part.freeSlot_refCount (s := (s.dequeue r.segment n).updatePort r.owner _) (by simpa using h)).trans (by
    simp [Part.refCount, Part.dequeue])

theorem Part.vacated_sameBus (s : Part) (n : Nat) (r : Record) : s.SameBus (s.vacated n r) := by
  simp [Part.SameBus, Part.vacated, Part.dequeue]

theorem Part.vacated_flagged (s : Part) (n : Nat) (r : Record) : s.PortsFlagged (s.vacated n r) fun _ => False := by
  intro p
  by_cases h : p = r.owner
  · subst h
    simp only [Part.vacated, Part.dequeue, Part.freeSlot_port, Part.updatePort_port, Part.updateEngine_port]
    refine ⟨trivial, trivial, trivial, fun g => ?_⟩
    cases g <;> simp [PortUnit.flag]
  · simp [Part.vacated, Part.dequeue, Part.updatePort_port_ne _ _ _ _ h]

/-- Settles O21: the slot is vacated, and what its station's entry becomes is R142's. -/
theorem releaseFreesSlot : Obligations.ReleaseFreesSlot := by
  intro s n r h
  have count : ∀ g k, ((s.vacated n r).forgetUnused r.segment r.station).refCount g k = (s.vacated n r).refCount g k :=
    fun g k => by simp [Part.refCount]
  dsimp only
  refine ⟨fun m => s.release_record n m, ?_⟩
  rw [Part.release_eq h]
  refine ⟨fun p => ?_, fun g => ⟨?_, ?_⟩, ?_, fun g k e he => ?_, ?_, ?_⟩
  · rw [Part.forgetUnused_attention, Part.vacated_attention]
  · rw [Part.forgetUnused_control, Part.vacated_control]
  · rw [Part.forgetUnused_engine, Part.vacated_engine]
  · rw [count, Part.vacated_refCount h]
  · simp only [count, Part.forgetUnused_station, Part.vacated_station, he, Option.map_some]
    refine ⟨?_, ?_, ?_⟩
    · rintro ⟨⟨rfl, rfl, hc⟩, hs⟩
      simp [hc, Station.forgotten, hs]
    · rintro ⟨⟨rfl, rfl, hc⟩, hs⟩
      simp [hc, Station.forgotten, hs]
    · rintro (hl | hs | hs)
      · exact if_neg fun c => hl ⟨c.1, c.2.1, by rw [c.1, c.2.1, c.2.2]⟩
      · simp [Station.forgotten, hs]
      · simp [Station.forgotten, hs]
  · exact (s.vacated_sameBus n r).trans (Part.forgetUnused_sameBus _ _ _)
  · refine ((s.vacated_flagged n r).trans (Part.forgetUnused_flagged _ r.segment r.station)).congr fun g => ?_
    rw [count]
    simp only [Part.vacated_station, false_or]
    constructor
    · rintro ⟨rfl, hc, hs⟩
      exact ⟨rfl, hc, hs⟩
    · rintro ⟨rfl, hc, hs⟩
      exact ⟨rfl, hc, hs⟩

end Sys2Proof.Machine
end

section
/-! SUPPORT. Which changes of a record keep its fields in their ranges and in step with each other (`Record.Sound`): one lemma
for each change that a command makes. -/

namespace Sys2Proof.Machine

/-! ### Reasons -/

theorem ReasonSet.add_retired_of (s : ReasonSet) (x : Reason) (h : s.retired = true) : (s.add x).retired = true := by
  cases x
  case retired => rfl
  all_goals exact h

theorem ReasonSet.foldl_retired_of (l : List Reason) (s : ReasonSet) (h : s.retired = true) :
    (l.foldl ReasonSet.add s).retired = true := by
  induction l generalizing s with
  | nil => exact h
  | cons x l ih => exact ih _ (s.add_retired_of x h)

theorem Record.withReasons_retired_of (r : Record) (l : List Reason) (h : r.reasons.retired = true) :
    (r.withReasons l).reasons.retired = true := by
  unfold Record.withReasons
  split
  · exact h
  · exact ReasonSet.foldl_retired_of l _ h

/-- R175: raising reasons keeps a record sound. -/
theorem Record.Sound.withReasons {r : Record} (h : r.Sound) (l : List Reason) : (r.withReasons l).Sound := by
  have notice : r.state = .retired → (r.withReasons l).reasons.retired = true :=
    fun hr => r.withReasons_retired_of l (h.notice hr)
  rw [Record.withReasons_eq] at notice ⊢
  exact { h with notice }

/-! ### Changes of state -/

/-- R28: the served states are active. -/
theorem RecordState.active_of_served {state : RecordState} (h : state.served = true) : state.active = true := by
  revert h
  cases state <;> decide

/-- R11, R52: only a RETIRING record is silent. -/
theorem Record.Sound.loud {r : Record} (h : r.Sound) (hs : r.state ≠ .retiring) : r.silentRetire = false :=
  Bool.eq_false_iff.mpr fun c => hs (h.silent c)

/-- A record enters a state with a condition. -/
theorem Record.Sound.enter {r : Record} (h : r.Sound) {state : RecordState} (condition : Condition)
    (belowBudget : state.served = true → r.errorCount < r.retryBudget)
    (active : state.active = true → r.state.active = true) (silent : r.silentRetire = true → state = .retiring)
    (notice : state = .retired → r.reasons.retired = true) :
    ({ r with state := state, condition := condition } : Record).Sound :=
  { h with
    belowBudget := belowBudget
    openWrite := fun hp ha => h.openWrite hp (active ha)
    silent := silent
    notice := notice }

/-- A served record changes to another served state. -/
theorem Record.Sound.serve {r : Record} (h : r.Sound) (hs : r.state.served = true) {state : RecordState}
    (condition : Condition) (hto : state.served = true) :
    ({ r with state := state, condition := condition } : Record).Sound := by
  have loud := h.loud fun e => by simp [e, RecordState.served] at hs
  refine h.enter condition (fun _ => h.belowBudget hs) (fun _ => RecordState.active_of_served hs)
    (fun c => by simp [loud] at c) (fun e => ?_)
  simp [e, RecordState.served] at hto

/-- A change of condition alone. -/
theorem Record.Sound.condition {r : Record} (h : r.Sound) (c : Condition) : ({ r with condition := c } : Record).Sound :=
  { h with }

/-- R31: an active record halts. -/
theorem Record.Sound.halted {r : Record} (h : r.Sound) (ha : r.state.active = true) (condition : Condition) :
    ({ r with state := .halted, condition := condition } : Record).Sound :=
  h.enter condition nofun (fun _ => ha)
    (fun c => by simp [h.silent c, RecordState.active] at ha) nofun

/-- R50: a record becomes RETIRING. -/
theorem Record.Sound.retiring {r : Record} (h : r.Sound) : ({ r with state := .retiring } : Record).Sound :=
  h.enter r.condition nofun nofun (fun _ => rfl) nofun

/-- R34, R178: a record that is not silent becomes RETIRED, with its notice. -/
theorem Record.Sound.retired {r : Record} (h : r.Sound) (loud : r.silentRetire = false) (condition : Condition) :
    (Record.withReasons { r with state := .retired, condition := condition } [.retired]).Sound := by
  have silent : ¬r.silentRetire = true := by simp [loud]
  unfold Record.withReasons
  rw [if_neg silent]
  exact { h with
    belowBudget := nofun
    openWrite := nofun
    silent := fun c => absurd c silent
    notice := fun _ => rfl }

/-- R52: a purged record becomes RETIRING in silence. -/
theorem Record.Sound.silenced {r : Record} (h : r.Sound) :
    ({ r with state := .retiring, silentRetire := true } : Record).Sound :=
  { h with
    belowBudget := nofun
    openWrite := nofun
    silent := fun _ => rfl
    notice := nofun }

/-- R177, R178: the notice of a record that is not RETIRED is taken. -/
theorem Record.Sound.noticed {r : Record} (h : r.Sound) (hs : r.state ≠ .retired) :
    ({ r with reasons := .empty } : Record).Sound :=
  { h with notice := fun e => absurd e hs }

/-! ### The station's part -/

/-- R145: a departure of the station. -/
theorem departureVerdict_sound (e : Engine) (c : Condition) (n : Nat) {r : Record} (h : r.Sound) :
    ((departureVerdict e c n r).1.withReasons (departureVerdict e c n r).2).Sound := by
  unfold departureVerdict
  split
  case h_1 hs => exact (h.serve (by rw [hs]; rfl) c rfl).withReasons _
  case h_2 | h_3 => exact (h.condition c).withReasons _
  case h_4 | h_5 => exact h.withReasons _
  case h_6 =>
    split
    · next hq =>
      refine h.retired ?_ _
      simp only [Bool.and_eq_true, Bool.not_eq_true'] at hq
      exact hq.2
    · exact h.withReasons _

/-- R65, R148: an output-class record starts its sequence anew. -/
theorem Record.Sound.resequenced {r : Record} (h : r.Sound) :
    (if r.kind.outputClass then { r with sequenceBit := false, missed := false } else r : Record).Sound := by
  split
  · exact { h with missed := nofun }
  · exact h

/-- R148: an attach or reattach of the station. -/
theorem attachVerdict_sound (i : Identity) (notice : Bool) (n : Nat) {r : Record} (h : r.Sound) :
    ((attachVerdict i notice n r).1.withReasons (attachVerdict i notice n r).2).Sound := by
  obtain ⟨r₀, hr₀, hstate⟩ : ∃ r₀, r₀ = (if r.kind.outputClass then { r with sequenceBit := false, missed := false } else r) ∧
      r₀.state = r.state := by
    refine ⟨_, rfl, ?_⟩
    split <;> rfl
  have h₀ : r₀.Sound := hr₀ ▸ h.resequenced
  unfold attachVerdict
  rw [← hr₀]
  dsimp only
  split
  case h_1 hs | h_2 hs | h_3 hs =>
    split
    · exact (h₀.halted (by rw [hstate, hs]; rfl) _).withReasons _
    · exact h₀.withReasons _
  case h_4 =>
    split
    · exact (h₀.condition _).withReasons _
    · exact h₀.withReasons _
  case h_5 | h_6 => exact h.withReasons _

theorem barVerdict_sound (n : Nat) {r : Record} (h : r.Sound) :
    ((barVerdict n r).1.withReasons (barVerdict n r).2).Sound := by
  refine Record.Sound.withReasons ?_ _
  unfold barVerdict
  split
  case h_1 | h_2 => exact h.condition _
  all_goals exact h

theorem unbarVerdict_sound (n : Nat) {r : Record} (h : r.Sound) :
    ((unbarVerdict n r).1.withReasons (unbarVerdict n r).2).Sound := by
  refine Record.Sound.withReasons ?_ _
  unfold unbarVerdict
  split
  case h_1 | h_2 =>
    dsimp only
    split
    · exact h.condition _
    · exact h
  all_goals exact h

/-! ### The cycle -/

/-- R3: a step of the countdown keeps it below the period. -/
theorem nextCountdown_lt {period k : Nat} {c : Option Nat} (h0 : period ≠ 0) (h : ∀ k, c = some k → k < period)
    (hk : nextCountdown period c = some k) : k < period := by
  rcases c with _ | _ | j
  · cases hk
  · cases hk
    omega
  · cases hk
    have := h _ rfl
    omega

theorem nextCountdown_isSome (period : Nat) (c : Option Nat) : (nextCountdown period c).isSome = c.isSome := by
  rcases c with _ | _ | j <;> rfl

/-- R80, R81: the cycle step of a record. -/
theorem stepVerdict_sound (n : Nat) {r : Record} (h : r.Sound) :
    ((stepVerdict n r).1.withReasons (stepVerdict n r).2).Sound := by
  have counted : ({ r with age := nextAge r.age, countdown := nextCountdown r.period r.countdown } : Record).Sound :=
    { h with
      age := Nat.min_le_left _ _
      countdown := by
        dsimp only
        rw [nextCountdown_isSome]
        exact h.countdown
      countdownBelow := fun k hk => by
        refine nextCountdown_lt (h.countdown.mp ?_) h.countdownBelow hk
        rw [← nextCountdown_isSome r.period]
        exact Option.isSome_of_eq_some hk }
  unfold stepVerdict
  dsimp only
  split
  · next ho =>
    have live : r.state = .live := by
      simp only [Record.outlived, Bool.and_eq_true, beq_iff_eq] at ho
      exact ho.1.1
    exact (counted.serve (by dsimp only; rw [live]; rfl) r.condition rfl).withReasons _
  · exact counted.withReasons _

theorem nextToken_range {t : Nat} (h : 1 ≤ t ∧ t ≤ 255) : 1 ≤ nextToken t ∧ nextToken t ≤ 255 := by
  unfold nextToken
  split <;> omega

/-- R122: a guarded write opens. -/
theorem Record.Sound.openedWrite {r : Record} (h : r.Sound) (hk : r.kind = .guarded) : r.openWrite.Sound := by
  have token : 1 ≤ nextToken (r.tokenCounter.getD 255) ∧ nextToken (r.tokenCounter.getD 255) ≤ 255 := by
    refine nextToken_range ?_
    rcases hc : r.tokenCounter with _ | t
    · exact ⟨by decide, by decide⟩
    · exact h.counterRange t hc
  exact { h with
    guardKind := fun _ => hk
    openWrite := fun _ _ => ⟨rfl, h.value (by rw [hk]; rfl)⟩
    counter := ⟨fun _ => hk, fun _ => rfl⟩
    counterRange := fun t ht => Option.some.inj ht ▸ token
    tokenRange := fun t ht => Option.some.inj ht ▸ token
    guardedOnly := fun hne => absurd hk hne
    stagedLength := h.valueLength }

/-- R90, R122: the start of a record's exchange. -/
theorem Record.Sound.started {r : Record} (h : r.Sound) : r.started.Sound := by
  unfold Record.started
  split
  case h_1 => exact h
  case h_2 => exact { h with }
  case h_3 hk =>
    split
    · exact h.openedWrite hk
    · exact h

/-! ### Outcomes -/

theorem Record.Sound.restored {r : Record} (h : r.Sound) : r.restored.Sound := { h with }

theorem Record.Sound.noteMissed {r : Record} (h : r.Sound) : r.noteMissed.Sound :=
  { h with
    missed := fun hm => by
      simp only [Record.noteMissed, Bool.or_eq_true, Bool.and_eq_true, beq_iff_eq] at hm
      exact hm.elim h.missed And.left }

theorem Record.Sound.restoreMissed {r : Record} (h : r.Sound) : r.restoreMissed.Sound := { h with missed := nofun }

theorem Record.Sound.storeAccepted {r : Record} (h : r.Sound) : r.storeAccepted.Sound := { h with }

/-- R127, R133: the guarded write ends. -/
theorem Record.Sound.closeWrite {r : Record} (h : r.Sound) : r.closeWrite.Sound :=
  { h with
    guardKind := fun hp => absurd rfl hp
    openWrite := fun hp => absurd rfl hp
    tokenRange := nofun
    guardedOnly := fun _ => ⟨rfl, rfl⟩
    stagedLength := nofun }

/-- R29, R105: a good outcome of a served record. -/
theorem Record.Sound.good {r : Record} (h : r.Sound) (hs : r.state.served = true) : r.good.Sound := by
  have cleared : ({ r with age := 0, errorCount := 0 } : Record).Sound :=
    { h with
      age := Nat.zero_le _
      errors := Nat.zero_le _
      belowBudget := fun _ => h.budget.1 }
  exact cleared.serve hs .ok rfl

/-- R106: the mirror takes a value of the record's length. -/
theorem Record.Sound.mirrored {r : Record} (h : r.Sound) {payload : List Byte} (fits : payload.length = r.length) :
    ({ r with value := some payload } : Record).Sound :=
  { h with
    value := fun _ => rfl
    valueLength := fun _ e => Option.some.inj e ▸ fits }

/-- R124, R125: a guarded write goes on to its next phase. -/
theorem Record.Sound.inPhase {r : Record} (h : r.Sound) (hp : r.guardPhase ≠ .closed) (next : GuardPhase) :
    ({ r with guardPhase := next } : Record).Sound :=
  { h with
    guardKind := fun _ => h.guardKind hp
    openWrite := fun _ => h.openWrite hp }

/-- R105, R127: a served record's error count is cleared. -/
theorem Record.Sound.cleared {r : Record} (h : r.Sound) : ({ r with errorCount := 0 } : Record).Sound :=
  { h with
    errors := Nat.zero_le _
    belowBudget := fun _ => h.budget.1 }

theorem Record.Sound.dirtied {r : Record} (h : r.Sound) (dirty : Bool) : ({ r with dirty := dirty } : Record).Sound :=
  { h with }

theorem Record.Sound.renewed {r : Record} (h : r.Sound) : ({ r with age := 0 } : Record).Sound :=
  { h with age := Nat.zero_le _ }

/-- An outcome that is not superseded belongs to an open write where its exchange is a guarded one. -/
theorem Record.open_of_supersedes {r : Record} {x : Exchange} (h : r.supersedes x = false) {p : GuardPhase}
    (hp : x.kind.phase = some p) : r.guardPhase = p := by
  simp only [Record.supersedes, hp, Bool.or_eq_false_iff, bne_eq_false_iff_eq] at h
  exact h.1

/-- Does the outcome's value, where it is a FETCH's DATA, have the record's length? -/
def ExchangeOutcome.Fits (o : ExchangeOutcome) (r : Record) : Prop :=
  ∀ bytes, o.exchange.kind = .fetch → o.result = .data bytes → bytes.length = r.length

/-- R110: a record error. -/
theorem Record.Sound.onError {r : Record} (h : r.Sound) (hs : r.state.served = true) (e : RecordError) :
    (r.onError e).record.Sound := by
  have below := h.belowBudget hs
  have missed := h.restored.noteMissed
  unfold Record.onError
  dsimp only
  split
  · have halted := missed.halted (RecordState.active_of_served hs) .exhausted
    exact { halted with
      errors := below
      belowBudget := nofun }
  · next hle =>
    exact { missed with
      errors := below
      belowBudget := fun _ => Nat.lt_of_not_le hle }

/-- R108 to R110, R113, R129: a failure. -/
theorem Record.Sound.failure {r : Record} (h : r.Sound) (hs : r.state.served = true) (result : ExchangeResult) :
    (r.failure result).record.Sound := by
  have active := RecordState.active_of_served hs
  unfold Record.failure
  cases result <;> dsimp only
  case defer => exact h.restored.condition _
  case refuse => exact h.restored.halted active _
  case timeout => exact h.restored.noteMissed.condition _
  case error e => exact h.onError hs e
  case data | accept | ident => exact h.onError hs _

/-- R105 to R107, R124, R125, R127, R134: the good outcomes and the phase results. -/
theorem Record.Sound.success {r : Record} (h : r.Sound) (hs : r.state.served = true) {o : ExchangeOutcome}
    (hsup : r.supersedes o.exchange = false) (fits : o.Fits r) {e : Effect}
    (he : r.success o.exchange.kind o.result = some e) : e.record.Sound := by
  have active := RecordState.active_of_served hs
  have opened : ∀ {p}, o.exchange.kind.phase = some p → p ≠ .closed → r.guardPhase ≠ .closed :=
    fun hp hne => by rw [Record.open_of_supersedes hsup hp]; exact hne
  unfold Record.success at he
  split at he
  case h_1 payload hk hr =>
    cases he
    exact (h.mirrored (fits payload hk hr)).good hs
  case h_2 =>
    cases he
    exact h.storeAccepted.restoreMissed.good hs
  case h_3 hk hr =>
    cases he
    exact ((h.inPhase (opened (p := .stage) (by rw [hk]; rfl) nofun) .verify).cleared).condition _
  case h_4 hk hr =>
    cases he
    split
    · exact ((h.inPhase (opened (p := .verify) (by rw [hk]; rfl) nofun) .commit).cleared).condition _
    · exact h.halted active _
  case h_5 =>
    cases he
    exact h.closeWrite.good hs
  case h_6 =>
    cases he
    exact h.closeWrite.cleared.condition _
  case h_7 =>
    cases he
    exact h.closeWrite.cleared
  case h_8 => cases he

/-- R102: the outcome of a served record on a PRESENT station. -/
theorem Record.Sound.served {r : Record} (h : r.Sound) (hs : r.state.served = true) {o : ExchangeOutcome}
    (hsup : r.supersedes o.exchange = false) (fits : o.Fits r) : (r.served o.exchange.kind o.result).record.Sound := by
  unfold Record.served
  rcases he : r.success o.exchange.kind o.result with _ | e
  · exact h.failure hs _
  · exact h.success hs hsup fits he

/-- R32, R115, R130: the outcome of a HALTED record, or of one whose station has left. -/
theorem Record.Sound.aside {r : Record} (h : r.Sound) {o : ExchangeOutcome} (hsup : r.supersedes o.exchange = false)
    (fits : o.Fits r) (dirtyAfter : Bool) : (r.aside dirtyAfter o.exchange.kind o.result).1.Sound := by
  have opened : ∀ {p}, o.exchange.kind.phase = some p → p ≠ .closed → r.guardPhase ≠ .closed :=
    fun hp hne => by rw [Record.open_of_supersedes hsup hp]; exact hne
  unfold Record.aside
  split
  case h_1 payload hk hr => exact (h.mirrored (fits payload hk hr)).renewed
  case h_2 => exact Record.Sound.restoreMissed { h with age := Nat.zero_le _ }
  case h_3 | h_4 => exact h.noteMissed.dirtied _
  case h_5 => exact h.dirtied _
  case h_6 hk hr => exact h.inPhase (opened (p := .stage) (by rw [hk]; rfl) nofun) _
  case h_7 hk hr =>
    split
    · exact h.inPhase (opened (p := .verify) (by rw [hk]; rfl) nofun) _
    · exact h
  case h_8 => exact h.closeWrite.renewed
  case h_9 | h_10 => exact h.closeWrite
  case h_11 => exact h

/-- R50, R136: a cancel is owed by a GUARDED record alone. -/
theorem Record.guarded_of_cancelOwed {r : Record} {k : Option ExchangeKind} (h : r.cancelOwed k = true) :
    r.kind = .guarded := by
  simp only [Record.cancelOwed, Bool.and_eq_true, beq_iff_eq] at h
  exact h.1

/-- R50, R136: the guard phase of a RETIRING record that owes a CANCEL. -/
theorem Record.Sound.owing {r : Record} (h : r.Sound) (hk : r.kind = .guarded) :
    ({ r with state := .retiring, guardPhase := .cancel } : Record).Sound :=
  { h with
    belowBudget := nofun
    guardKind := fun _ => hk
    openWrite := nofun
    silent := fun _ => rfl
    notice := nofun }

/-- R139, R170: a record at the teardown. -/
theorem tornVerdict_sound (store : Nat → Bool) (n : Nat) {r : Record} (h : r.Sound) :
    ((tornVerdict store n r).1.withReasons (tornVerdict store n r).2).Sound := by
  obtain ⟨r₀, hr₀, h₀, hstate, hsilent⟩ : ∃ r₀, r₀ = (if r.kind = .output && store n then { r with dirty := true } else r) ∧
      r₀.Sound ∧ r₀.state = r.state ∧ r₀.silentRetire = r.silentRetire := by
    refine ⟨_, rfl, ?_⟩
    split
    · exact ⟨h.dirtied true, rfl, rfl⟩
    · exact ⟨h, rfl, rfl⟩
  unfold tornVerdict
  rw [← hr₀]
  dsimp only
  split
  case h_1 hs | h_3 hs =>
    split
    · exact (h₀.halted (by rw [hstate, hs]; rfl) _).withReasons _
    · rw [if_neg (by simp [hs])]
      exact (h₀.condition _).withReasons _
  case h_2 hs =>
    split
    · exact (h₀.halted (by rw [hstate, hs]; rfl) _).withReasons _
    · exact (h₀.serve (by rw [hstate, hs]; rfl) _ rfl).withReasons _
  case h_4 => exact h₀.withReasons _
  case h_5 =>
    split
    · exact h₀.withReasons _
    · next hq => exact h₀.retired (by rw [hsilent]; exact Bool.eq_false_iff.mpr hq) _
  case h_6 => exact h.withReasons _

end Sys2Proof.Machine
end

section
/-! SUPPORT. Which records the requests of chapter 2 make sound: INSERT, AMEND, WRITE, RESUME and RESTART. -/

namespace Sys2Proof.Machine

/-! ### Field checks (R37, R40) -/

theorem yesNoOf_isSome {b : Byte} (h : yesNoOf b ≠ none) : b.toNat ≤ 1 := by
  unfold yesNoOf at h
  split at h
  · decide
  · decide
  · exact absurd rfl h

theorem noticeOf_isSome {b : Byte} (h : noticeOf b ≠ none) : b.toNat ≤ 1 := by
  unfold noticeOf at h
  split at h
  · decide
  · decide
  · exact absurd rfl h

theorem byte_ne_zero_iff (b : Byte) : b ≠ 0 ↔ b.toNat ≠ 0 := by
  simp [BitVec.toNat_eq]

/-- A chain of checks names no field when none of its checks fails. -/
theorem ite_some_eq_none {α : Type} {c : Prop} [Decidable c] {x : α} {rest : Option α} :
    (if c then some x else rest) = none ↔ ¬c ∧ rest = none := by
  split <;> simp_all

/-- R3, R37: the phase is below the period, and 0 when the period is 0. -/
theorem phaseBad_false {period phase : Nat} (h : phaseBad period phase = false) :
    phase < period ∨ (period = 0 ∧ phase = 0) := by
  unfold phaseBad at h
  split at h
  · next h0 => exact Or.inr ⟨h0, by simpa using h⟩
  · exact Or.inl (by simpa using h)

/-- R3, R37: a period that suits the kind. -/
theorem periodBad_false {kind : RecordKind} {period : Nat} (h : periodBad kind period = false) :
    (kind = .input → period ≠ 0) ∧ (kind = .guarded → period = 0) := by
  cases kind <;> simp_all [periodBad]

theorem freshnessApplies_iff (kind : RecordKind) (period : Nat) :
    freshnessApplies kind period = true ↔ kind = .input ∨ (kind = .output ∧ period ≠ 0) := by
  cases kind <;> simp [freshnessApplies]

/-- R37: the fields of an INSERT that name no failing field pass every check. -/
theorem InsertArgs.fits_of_failing {a : InsertArgs} {kind : RecordKind} {g : Segment} (h : a.failing = none)
    (hk : kindOf a.kind = some kind) (hg : segmentOf a.segment = some g) : a.Fits kind g := by
  unfold InsertArgs.failing at h
  simp only [hk, hg, reduceCtorEq, if_false, ite_some_eq_none] at h
  obtain ⟨station, length, period, phase, limit, budget, notice, shared, valueOut, valueIn, -⟩ := h
  obtain ⟨pin, pguard⟩ := periodBad_false (Bool.eq_false_iff.mpr period)
  refine ⟨hk, hg, by omega, by omega, ⟨fun e => (byte_ne_zero_iff _).mpr (pin e), fun e => ?_⟩, ?_, fun hf => ?_,
    by omega, noticeOf_isSome notice, yesNoOf_isSome shared, ?_⟩
  · exact BitVec.eq_of_toNat_eq (pguard e)
  · refine (phaseBad_false (Bool.eq_false_iff.mpr phase)).imp id fun hp => ⟨BitVec.eq_of_toNat_eq hp.1, BitVec.eq_of_toNat_eq hp.2⟩
  · have applies : freshnessApplies kind a.period.toNat = true :=
      (freshnessApplies_iff _ _).mpr (hf.imp id fun hp => ⟨hp.1, (byte_ne_zero_iff _).mp hp.2⟩)
    simpa [applies] using limit
  · cases kind <;> simp_all [RecordKind.outputClass]

/-- R7, R37: the budget that a budget argument of at most 7 selects. -/
theorem budgetOf_range {b : Nat} (h : b ≤ 7) : 1 ≤ budgetOf b ∧ budgetOf b ≤ 7 := by
  unfold budgetOf Config.defaultBudget
  split <;> omega

theorem byte_le (b : Byte) : b.toNat ≤ 255 := by
  have := b.isLt
  omega

/-- R39: the record that an INSERT creates. -/
theorem InsertArgs.record_sound {a : InsertArgs} {kind : RecordKind} {g : Segment} (h : a.Fits kind g) (p : Port)
    {tag : Nat} (htag : 1 ≤ tag ∧ tag ≤ 65535) (st : StationState) : (a.record p tag kind g st).Sound where
  tag := htag
  station := h.station
  object := byte_le _
  length := h.length
  period := byte_le _
  periodKind := ⟨fun e => (byte_ne_zero_iff _).mp (h.period.1 e), fun e => by
    simp [InsertArgs.record, h.period.2 e]⟩
  age := Nat.zero_le _
  budget := budgetOf_range h.budget
  errors := Nat.zero_le _
  belowBudget := fun _ => (budgetOf_range h.budget).1
  countdown := by
    simp only [InsertArgs.record]
    split <;> simp_all
  countdownBelow := fun k hk => by
    have hp := h.phase
    simp only [InsertArgs.record] at hk ⊢
    split at hk
    · cases hk
    · next h0 =>
      cases hk
      exact hp.resolve_right fun e => h0 (by simp [e.1])
  phase := h.phase.imp id fun e => ⟨by simp [InsertArgs.record, e.1], by simp [InsertArgs.record, e.2]⟩
  freshness := by
    simp only [InsertArgs.record]
    split <;> simp_all
  freshnessRange := fun limit hl => by
    simp only [InsertArgs.record] at hl
    split at hl
    · next hf =>
      cases hl
      have := (freshnessApplies_iff _ _).mp hf
      have := (byte_ne_zero_iff _).mp (h.limit (this.imp id fun e => ⟨e.1, (byte_ne_zero_iff _).mpr e.2⟩))
      exact ⟨by omega, byte_le _⟩
    · cases hl
  guardKind := fun hp => absurd rfl hp
  openWrite := fun hp => absurd rfl hp
  counter := by
    simp only [InsertArgs.record]
    split <;> simp_all
  counterRange := fun t ht => by
    simp only [InsertArgs.record] at ht
    split at ht
    · cases ht
      decide
    · cases ht
  tokenRange := nofun
  guardedOnly := fun _ => ⟨rfl, rfl⟩
  value := fun hk => by simp_all [InsertArgs.record]
  valueLength := fun bytes hb => by
    have hv := h.value
    simp only [InsertArgs.record] at hb ⊢
    split at hb
    · next hk =>
      cases hb
      rw [hv, if_neg (by rintro rfl; cases hk)]
    · cases hb
  stagedLength := nofun
  silent := nofun
  missed := nofun
  notice := nofun

/-! ### AMEND (R40 to R43) -/

/-- R189: the numbers of an AMEND are bytes. -/
theorem amendArgs_le {args : List Byte} {a : AmendArgs} (h : amendArgs args = some a) :
    (∀ x, a.period = some x → x ≤ 255) ∧ ∀ x, a.freshnessLimit = some x → x ≤ 255 := by
  have byte : ∀ (c : Bool) (b : Byte) x, (if c then some b.toNat else none) = some x → x ≤ 255 := by
    intro c b x hx
    split at hx
    · cases hx
      exact byte_le b
    · cases hx
  unfold amendArgs at h
  split at h
  · cases h
    exact ⟨byte _ _, byte _ _⟩
  · cases h

/-- R40: the checks that an AMEND which names no failing field has passed. -/
structure AmendArgs.Fits (a : AmendArgs) (r : Record) : Prop where
  period : periodBad r.kind (a.newPeriod r) = false
  phase : phaseBad (a.newPeriod r) (a.newPhase r) = false
  limit : freshnessApplies r.kind (a.newPeriod r) = true → (a.newLimit r).getD 0 ≠ 0
  budget : ∀ b, a.retryBudget = some b → b ≤ 7

theorem AmendArgs.fits_of_failing {a : AmendArgs} {r : Record} (h : a.failing r = none) : a.Fits r := by
  unfold AmendArgs.failing at h
  simp only [ite_some_eq_none] at h
  obtain ⟨period, phase, limit, budget, -, -, -⟩ := h
  refine ⟨Bool.eq_false_iff.mpr period, Bool.eq_false_iff.mpr phase, fun hf => ?_, fun b hb => ?_⟩
  · simpa [hf] using limit
  · simpa [hb] using budget

/-- R40: the resulting period is a byte. -/
theorem AmendArgs.newPeriod_le {a : AmendArgs} {r : Record} (hr : r.period ≤ 255)
    (ha : ∀ x, a.period = some x → x ≤ 255) : a.newPeriod r ≤ 255 := by
  unfold AmendArgs.newPeriod
  rcases h : a.period with _ | x
  · exact hr
  · exact ha x h

/-- R40: the resulting freshness limit is 1 to 255, and held exactly where freshness applies. -/
theorem AmendArgs.newLimit_range {a : AmendArgs} {r : Record} (fits : a.Fits r) (h : r.Sound)
    (ha : ∀ x, a.freshnessLimit = some x → x ≤ 255) :
    (a.newLimit r).isSome = freshnessApplies r.kind (a.newPeriod r) ∧
      ∀ limit, a.newLimit r = some limit → 1 ≤ limit ∧ limit ≤ 255 := by
  cases hf : freshnessApplies r.kind (a.newPeriod r)
  · have none : a.newLimit r = none := by simp [AmendArgs.newLimit, hf]
    simp [none]
  · have positive := fits.limit hf
    have upper : ∀ limit, a.newLimit r = some limit → limit ≤ 255 := by
      intro limit hl
      simp only [AmendArgs.newLimit, hf, if_true] at hl
      split at hl
      · next f hfl =>
        cases hl
        exact ha _ hfl
      · exact (h.freshnessRange limit hl).2
    rcases hl : a.newLimit r with _ | limit
    · simp [hl] at positive
    · refine ⟨rfl, fun _ e => ?_⟩
      cases e
      exact ⟨Nat.pos_of_ne_zero (by simpa [hl] using positive), upper _ hl⟩

/-- R42: the countdown after an AMEND: it starts anew where a period or a phase is named. -/
theorem AmendArgs.apply_countdown {a : AmendArgs} {r : Record} (fits : a.Fits r) (h : r.Sound) :
    ((a.apply r).countdown.isSome = true ↔ a.newPeriod r ≠ 0) ∧
      ∀ k, (a.apply r).countdown = some k → k < a.newPeriod r := by
  have phase := phaseBad_false fits.phase
  simp only [AmendArgs.apply]
  split
  · split
    · next h0 => simp [h0]
    · next h0 =>
      refine ⟨by simp [h0], fun k hk => ?_⟩
      cases hk
      exact phase.resolve_right fun e => h0 e.1
  · next named =>
    have same : a.newPeriod r = r.period := by
      have : a.period = none := by
        simp only [Bool.or_eq_true, not_or, Option.not_isSome_iff_eq_none] at named
        exact named.1
      simp [AmendArgs.newPeriod, this]
    rw [same]
    exact ⟨h.countdown, h.countdownBelow⟩

/-- R41: the error count after an AMEND stays within the budget. -/
theorem AmendArgs.apply_errors {a : AmendArgs} {r : Record} (fits : a.Fits r) (h : r.Sound) :
    (1 ≤ (a.apply r).retryBudget ∧ (a.apply r).retryBudget ≤ 7) ∧
      (a.apply r).errorCount ≤ (a.apply r).retryBudget ∧
      (r.state.served = true → (a.apply r).errorCount < (a.apply r).retryBudget) := by
  have budget := h.budget
  have errors := h.errors
  have below := h.belowBudget
  simp only [AmendArgs.apply]
  rcases hb : a.retryBudget with _ | b
  · simpa using ⟨budget, errors, below⟩
  · have range := budgetOf_range (fits.budget b hb)
    simp only [Option.map_some, Option.getD_some, Option.isSome_some, Bool.true_and, decide_eq_true_eq]
    refine ⟨range, ?_, fun _ => ?_⟩ <;> split <;> omega

/-- R40 to R43: the record with the changes of an AMEND. -/
theorem AmendArgs.apply_sound {a : AmendArgs} {r : Record} (fits : a.Fits r) (h : r.Sound)
    (hp : ∀ x, a.period = some x → x ≤ 255) (hl : ∀ x, a.freshnessLimit = some x → x ≤ 255) : (a.apply r).Sound := by
  obtain ⟨freshness, freshnessRange⟩ := AmendArgs.newLimit_range fits h hl
  obtain ⟨countdown, countdownBelow⟩ := AmendArgs.apply_countdown fits h
  obtain ⟨budget, errors, belowBudget⟩ := AmendArgs.apply_errors fits h
  exact { h with
    period := AmendArgs.newPeriod_le h.period hp
    periodKind := periodBad_false fits.period
    phase := phaseBad_false fits.phase
    budget, errors, belowBudget, countdown, countdownBelow, freshness, freshnessRange }

/-! ### WRITE, RESUME, RESTART -/

/-- R44: a WRITE of a value of the record's length. -/
theorem Record.Sound.written {r : Record} (h : r.Sound) {value : List Byte} (hl : value.length = r.length)
    (rewritten : Bool) : ({ r with value := some value, dirty := true, rewritten := rewritten } : Record).Sound :=
  { h with
    value := fun _ => rfl
    valueLength := fun _ e => Option.some.inj e ▸ hl }

/-- R46: a HALTED record returns to PENDING. -/
theorem Record.Sound.resumed {r : Record} (h : r.Sound) (hs : r.state = .halted) (s : Part) : (s.resumed r).Sound := by
  have loud := h.loud (by rw [hs]; nofun)
  exact { h.cleared with
    belowBudget := fun _ => h.budget.1
    openWrite := fun hp _ => h.openWrite hp (by rw [hs]; rfl)
    silent := fun c => absurd c (by simp [Part.resumed, loud])
    notice := nofun }

/-- R133: RESTART on a record that has returned to PENDING. -/
theorem Record.Sound.restarted {r : Record} (h : r.Sound) : r.restartGuard.Sound := by
  unfold Record.restartGuard
  split
  case h_1 => exact h
  case h_2 => exact h.closeWrite.dirtied true
  case h_3 hp | h_4 hp | h_5 hp => exact (h.inPhase (by rw [hp]; nofun) .cancel).dirtied true

end Sys2Proof.Machine
end

section
/-! SUPPORT. What the claims that work on records and stations can do to the part, said once (`Part.Acts`): they take no slot,
keep the fields that INSERT gives for good, keep records sound, and touch no more of a segment than its queue and its
stations' entries. Every invariant of the table and of the directories follows from it. -/

namespace Sys2Proof.Machine

/-! ### What a record and a station's entry can become -/

/-- R39, R40: the fields of a record that stay as INSERT gave them. -/
def Record.fixed (r : Record) : Nat × Port × RecordKind × Segment × Nat × Nat × Nat :=
  (r.tag, r.owner, r.kind, r.segment, r.station, r.object, r.length)

theorem Record.fixed_eq_iff (q r : Record) : q.fixed = r.fixed ↔ q.tag = r.tag ∧ q.owner = r.owner ∧ q.kind = r.kind ∧
    q.segment = r.segment ∧ q.station = r.station ∧ q.object = r.object ∧ q.length = r.length := by
  simp [Record.fixed]

@[simp] theorem Record.withReasons_fixed (r : Record) (l : List Reason) : (r.withReasons l).fixed = r.fixed := by
  unfold Record.withReasons
  split <;> rfl

/-- A record keeps its fixed fields, and stays sound; `fits` is what the soundness rests on beside the record itself. -/
def Record.Becomes (fits : Prop) (q r : Record) : Prop := r.fixed = q.fixed ∧ (fits → q.Sound → r.Sound)

theorem Record.Becomes.refl (fits : Prop) (r : Record) : r.Becomes fits r := ⟨rfl, fun _ h => h⟩

theorem Record.Becomes.trans {fits : Prop} {p q r : Record} (h : p.Becomes fits q) (k : q.Becomes fits r) :
    p.Becomes fits r :=
  ⟨k.1.trans h.1, fun hf hp => k.2 hf (h.2 hf hp)⟩

/-- The change of a record by a verdict, whatever the soundness rests on. -/
theorem Record.Becomes.of_verdict {fits : Prop} {r : Record} {v : Verdict} (fixed : v.1.fixed = r.fixed)
    (sound : r.Sound → (v.1.withReasons v.2).Sound) : r.Becomes fits (v.1.withReasons v.2) :=
  ⟨(v.1.withReasons_fixed v.2).trans fixed, fun _ => sound⟩

/-- R142 to R149, R151, R153: what one claim makes of a station's entry. `heard` says that the outcomes of the segment's
exchanges may be among the claims. -/
inductive Station.Turn (limit : Nat) (heard : Prop) : Station → Station → Prop
  /-- R142, R144, R153: the station becomes ABSENT. -/
  | absent (e : Station) (i : Option Identity) : Turn limit heard e ⟨.absent, i, 0⟩
  /-- R151: the station is barred. -/
  | barred (e : Station) (i : Option Identity) : Turn limit heard e ⟨.barred, i, 0⟩
  /-- R142: an ABSENT station without records is forgotten. -/
  | forgotten (e : Station) (h : e.state = .absent) : Turn limit heard e { e with identity := none }
  /-- R143: the silence counter of a PRESENT station. -/
  | counted (e : Station) (count : Nat) (hear : heard) (h : e.state = .present)
      (range : count = 0 ∨ count = e.silence ∨ (count = e.silence + 1 ∧ count < limit)) :
      Turn limit heard e { e with silence := count }
  /-- R144: a PRESENT station goes silent. -/
  | silenced (e : Station) (hear : heard) (h : e.state = .present) (reached : limit ≤ e.silence + 1) :
      Turn limit heard e ⟨.silent, e.identity, e.silence + 1⟩
  /-- R147, R149: a station answers a PROBE. -/
  | attached (e : Station) (i : Identity) (hear : heard) : Turn limit heard e ⟨.present, some i, 0⟩

/-- What several claims make of a station's entry. -/
abbrev Station.Turns (limit : Nat) (heard : Prop) : Station → Station → Prop :=
  Relation.ReflTransGen (Station.Turn limit heard)

/-- R142: what a release makes of a station's entry. -/
theorem Station.turns_forgotten (limit : Nat) (heard : Prop) (e : Station) : e.Turns limit heard e.forgotten := by
  unfold Station.forgotten
  split
  · exact .single (.absent e none)
  · next h => exact .single (.forgotten e h)
  · exact .refl
  · exact .refl

/-! ### What the claims can do to the part -/

/-- What the claims on records and stations can do to the part. -/
structure Part.Acts (fits : Prop) (heard : Segment → Prop) (s t : Part) : Prop where
  size : t.slots.length = s.slots.length
  records : ∀ n r, t.record n = some r → ∃ q, s.record n = some q ∧ q.Becomes fits r
  buffers : ∀ p f, (t.port p).buffer = .submitted f → (s.port p).buffer = .submitted f
  queues : ∀ g, ∃ active held, t.engine g = { s.engine g with active := active, held := held }
  controls : ∀ g, t.control g = s.control g
  stations : ∀ g, (t.seg g).stations.length = (s.seg g).stations.length
  entries : ∀ g k e', t.station g k = some e' →
    ∃ e, s.station g k = some e ∧ e.Turns (s.control g).config.silenceLimit (heard g) e'

section Acts
variable {fits : Prop} {heard : Segment → Prop} {s t u : Part}

theorem Part.Acts.refl (fits : Prop) (heard : Segment → Prop) (s : Part) : s.Acts fits heard s where
  size := rfl
  records := fun _ r hr => ⟨r, hr, .refl fits r⟩
  buffers := fun _ _ h => h
  queues := fun _ => ⟨_, _, rfl⟩
  controls := fun _ => rfl
  stations := fun _ => rfl
  entries := fun _ _ e he => ⟨e, he, .refl⟩

theorem Part.Acts.trans (h : s.Acts fits heard t) (k : t.Acts fits heard u) : s.Acts fits heard u where
  size := k.size.trans h.size
  records := fun n r hr => by
    obtain ⟨q, hq, hqr⟩ := k.records n r hr
    obtain ⟨p, hp, hpq⟩ := h.records n q hq
    exact ⟨p, hp, hpq.trans hqr⟩
  buffers := fun p f hf => h.buffers p f (k.buffers p f hf)
  queues := fun g => by
    obtain ⟨_, _, hh⟩ := h.queues g
    obtain ⟨a, b, hk⟩ := k.queues g
    exact ⟨a, b, by rw [hk, hh]⟩
  controls := fun g => (k.controls g).trans (h.controls g)
  stations := fun g => (k.stations g).trans (h.stations g)
  entries := fun g n e he => by
    obtain ⟨e₁, h₁, turns₁⟩ := k.entries g n e he
    obtain ⟨e₀, h₀, turns₀⟩ := h.entries g n e₁ h₁
    rw [h.controls g] at turns₁
    exact ⟨e₀, h₀, turns₀.trans turns₁⟩

/-- A change of the table alone. -/
theorem Part.Acts.table (h : s.Acts fits heard t) (size : u.slots.length = t.slots.length)
    (records : ∀ n r, u.record n = some r → ∃ q, t.record n = some q ∧ q.Becomes fits r)
    (buffers : ∀ p, (u.port p).buffer = (t.port p).buffer) (segs : ∀ g, u.seg g = t.seg g) : s.Acts fits heard u :=
  h.trans
    { size, records
      buffers := fun p _ hf => (buffers p) ▸ hf
      queues := fun g => ⟨_, _, congrArg SegmentUnit.engine (segs g)⟩
      controls := fun g => congrArg SegmentUnit.control (segs g)
      stations := fun g => by rw [segs g]
      entries := fun g k e he => ⟨e, by simpa only [Part.station, segs g] using he, .refl⟩ }

/-- The records are what the slots hold. -/
theorem Part.record_congr (h : t.slots = s.slots) (n : Nat) : t.record n = s.record n := by
  simp [Part.record, h]

/-- A change of the ports' lists, flags and enables alone. -/
theorem Part.Acts.ports (h : s.Acts fits heard t) (slots : u.slots = t.slots)
    (buffers : ∀ p, (u.port p).buffer = (t.port p).buffer) (segs : ∀ g, u.seg g = t.seg g) : s.Acts fits heard u :=
  h.table (by rw [slots]) (fun n r hr => ⟨r, (Part.record_congr slots n) ▸ hr, .refl fits r⟩) buffers segs

theorem Part.Acts.withRecord (h : s.Acts fits heard t) {n : Nat} {q r : Record} (hq : t.record n = some q)
    (hb : q.Becomes fits r) : s.Acts fits heard (t.withRecord n r) := by
  refine h.table (by simp) (fun m x hx => ?_) (by simp) (by simp)
  by_cases hm : m = n
  · subst hm
    rw [Part.withRecord_record t m r (Part.record_lt hq), Option.some_inj] at hx
    exact ⟨q, hq, hx ▸ hb⟩
  · rw [Part.withRecord_record_ne t n m r hm] at hx
    exact ⟨x, hx, .refl fits x⟩

theorem Part.Acts.updatePort (h : s.Acts fits heard t) (p : Port) {f : PortUnit → PortUnit}
    (hf : ∀ v, (f v).buffer = v.buffer) : s.Acts fits heard (t.updatePort p f) := by
  refine h.ports (by simp) (fun q => ?_) (by simp)
  by_cases hq : q = p
  · subst hq
    rw [Part.updatePort_port, hf]
  · rw [Part.updatePort_port_ne t p q f hq]

theorem Part.Acts.setFlags (h : s.Acts fits heard t) (g : Segment) : s.Acts fits heard (t.setFlags g) :=
  h.ports rfl (fun p => by cases p <;> cases g <;> rfl) (by simp)

theorem Part.Acts.inSlotOrder (h : s.Acts fits heard t) (u : Part) : s.Acts fits heard (u.inSlotOrder t) :=
  h.ports rfl (fun p => by cases p <;> rfl) (by simp)

theorem Part.Acts.put (h : s.Acts fits heard t) {n : Nat} {q r : Record} {l : List Reason} (hq : t.record n = some q)
    (hb : q.Becomes fits (r.withReasons l)) : s.Acts fits heard (t.put n r l) := by
  have placed := h.withRecord hq hb
  unfold Part.put
  dsimp only
  split
  · exact placed.updatePort _ fun _ => rfl
  · exact placed

theorem Part.Acts.forRecords (h : s.Acts fits heard t) {test : Nat → Record → Bool} {f : Nat → Record → Verdict}
    (hb : ∀ (n : Nat) (r : Record), r.Becomes fits ((f n r).1.withReasons (f n r).2)) : s.Acts fits heard (t.forRecords test f) := by
  refine h.table (by simp [Part.forRecords]) (fun n r hr => ?_) (fun p => by rw [Part.forRecords_port]) (by simp)
  rw [Part.forRecords_record] at hr
  obtain ⟨q, hq, rfl⟩ := Option.map_eq_some_iff.mp hr
  refine ⟨q, hq, ?_⟩
  split
  · exact hb n q
  · exact .refl fits q

theorem Part.Acts.freeSlot (h : s.Acts fits heard t) (n : Nat) : s.Acts fits heard (t.freeSlot n) := by
  refine h.table (by simp) (fun m r hr => ?_) (by simp) (by simp)
  by_cases hm : m = n
  · subst hm
    simp [Part.freeSlot_record] at hr
  · exact ⟨r, (t.freeSlot_record_ne n m hm) ▸ hr, .refl fits r⟩

/-- R186: the answer goes into the port's response buffer. -/
theorem Part.Acts.answer (h : s.Acts fits heard t) (p : Port) (f : RequestFrame) (a : Status) (l : List Byte) :
    s.Acts fits heard (t.answer p f a l) := by
  refine h.trans
    { size := by simp [Part.answer, Part.withBuffer]
      records := fun n r hr => ⟨r, by simpa using hr, .refl fits r⟩
      buffers := fun q f' hf => ?_
      queues := fun g => ⟨_, _, congrArg SegmentUnit.engine (t.answer_seg p f a l g)⟩
      controls := fun g => congrArg SegmentUnit.control (t.answer_seg p f a l g)
      stations := fun g => by simp
      entries := fun g k e he => ⟨e, by simpa [Part.station] using he, .refl⟩ }
  by_cases hq : q = p
  · subst hq
    simp [Part.answer, Part.withBuffer] at hf
  · simpa [Part.answer, Part.withBuffer, Part.updatePort_port_ne _ _ _ _ hq] using hf

/-- A change of a segment's Due Queue. -/
theorem Part.Acts.requeue (h : s.Acts fits heard t) (g : Segment) {f : Engine → Engine}
    (hf : ∀ e, ∃ active held, f e = { e with active := active, held := held }) :
    s.Acts fits heard (t.updateEngine g f) :=
  h.trans
    { size := by simp
      records := fun n r hr => ⟨r, by simpa using hr, .refl fits r⟩
      buffers := fun p f hf => by simpa using hf
      queues := fun k => by
        rw [Part.updateEngine_engine_eq]
        split
        · exact hf _
        · exact ⟨_, _, rfl⟩
      controls := fun k => by simp
      stations := fun k => by simp
      entries := fun k n e he => ⟨e, by simpa using he, .refl⟩ }

/-- R87: a removal from the Due Queue. -/
theorem Part.Acts.remove (h : s.Acts fits heard t) (g : Segment) (test : Nat → Bool) :
    s.Acts fits heard (t.updateEngine g (·.remove test)) :=
  h.requeue g fun _ => ⟨_, _, rfl⟩

theorem Part.Acts.dequeue (h : s.Acts fits heard t) (g : Segment) (n : Nat) : s.Acts fits heard (t.dequeue g n) :=
  h.remove g _

/-- R86: a placement. -/
theorem Part.Acts.place (h : s.Acts fits heard t) (g : Segment) (n : Nat) (p : Placement) :
    s.Acts fits heard (t.place g n p) := by
  unfold Part.place
  split
  · cases p
    · exact h
    · exact h.requeue g fun _ => ⟨_, _, rfl⟩
    · exact h.requeue g fun _ => ⟨_, _, rfl⟩
  · exact h

theorem Part.withStation_stations_length (s : Part) (g k : Segment) (n : Nat) (e : Station) :
    ((s.withStation g n e).seg k).stations.length = (s.seg k).stations.length := by
  by_cases hk : k = g
  · subst hk
    unfold Part.withStation
    split
    · rfl
    · simp
  · rw [Part.withStation_seg_ne s g k n e hk]

/-- A station's entry is replaced by one that it can become. -/
theorem Part.Acts.withStation (h : s.Acts fits heard t) (g : Segment) (n : Nat) {new : Station}
    (turn : ∀ e, t.station g n = some e → e.Turns (t.control g).config.silenceLimit (heard g) new) :
    s.Acts fits heard (t.withStation g n new) :=
  h.trans
    { size := by simp
      records := fun m r hr => ⟨r, by simpa using hr, .refl fits r⟩
      buffers := fun p f hf => by simpa using hf
      queues := fun k => ⟨_, _, t.withStation_engine g k n new⟩
      controls := fun k => t.withStation_control g k n new
      stations := fun k => t.withStation_stations_length g k n new
      entries := fun k m e he => by
        rw [Part.withStation_station_eq] at he
        split at he
        · next hm =>
          obtain ⟨rfl, rfl⟩ := hm
          obtain ⟨e₀, h₀, rfl⟩ := Option.map_eq_some_iff.mp he
          exact ⟨e₀, h₀, turn e₀ h₀⟩
        · exact ⟨e, he, .refl⟩ }

/-- A change made for each entry of a list. -/
theorem Part.Acts.foldl {α : Type} {f : Part → α → Part} (l : List α) (h : s.Acts fits heard t)
    (hf : ∀ u, ∀ a ∈ l, s.Acts fits heard u → s.Acts fits heard (f u a)) : s.Acts fits heard (l.foldl f t) := by
  induction l generalizing t with
  | nil => exact h
  | cons a l ih =>
    exact ih (hf t a List.mem_cons_self h) fun u b hb hu => hf u b (List.mem_cons_of_mem a hb) hu

/-! ### Release (R19) -/

theorem Part.Acts.forgetUnused (h : s.Acts fits heard t) (g : Segment) (k : Nat) :
    s.Acts fits heard (t.forgetUnused g k) := by
  have turn : ∀ {e e' : Station}, t.station g k = some e → e' = e.forgotten → ∀ x, t.station g k = some x →
      x.Turns (t.control g).config.silenceLimit (heard g) e' := fun he e' x hx => by
    rw [he, Option.some_inj] at hx
    subst hx e'
    exact Station.turns_forgotten ..
  unfold Part.forgetUnused
  split
  · split
    · next e he =>
      split
      · next hs => exact (h.withStation g k (turn he (by simp [Station.forgotten, hs]))).setFlags g
      · next hs => exact h.withStation g k (turn he (by simp [Station.forgotten, hs]))
      · exact h
      · exact h
    · exact h
  · exact h

theorem Part.Acts.release (h : s.Acts fits heard t) (n : Nat) : s.Acts fits heard (t.release n) := by
  rcases hr : t.record n with _ | r
  · simpa [Part.release, hr] using h
  · rw [Part.release_eq hr]
    exact .forgetUnused (.freeSlot (.updatePort (h.dequeue r.segment n) r.owner (by intro; rfl)) n) ..

/-! ### The stations' part in it (chapter 7) -/

theorem departureVerdict_fixed (e : Engine) (c : Condition) (n : Nat) (r : Record) :
    (departureVerdict e c n r).1.fixed = r.fixed := by
  unfold departureVerdict
  split
  case h_6 => split <;> rfl
  all_goals rfl

theorem attachVerdict_fixed (i : Identity) (notice : Bool) (n : Nat) (r : Record) :
    (attachVerdict i notice n r).1.fixed = r.fixed := by
  have cleared : (if r.kind.outputClass then { r with sequenceBit := false, missed := false } else r).fixed = r.fixed := by
    split <;> rfl
  unfold attachVerdict
  dsimp only
  split
  case h_5 | h_6 => rfl
  all_goals split <;> exact cleared

theorem barVerdict_fixed (n : Nat) (r : Record) : (barVerdict n r).1.fixed = r.fixed := by
  unfold barVerdict
  split <;> rfl

theorem unbarVerdict_fixed (n : Nat) (r : Record) : (unbarVerdict n r).1.fixed = r.fixed := by
  unfold unbarVerdict
  split
  case h_1 | h_2 =>
    dsimp only
    split <;> rfl
  all_goals rfl

/-- R145: a departure of a station. -/
theorem Part.Acts.departRecords (h : s.Acts fits heard t) (g : Segment) (k : Nat) (c : Condition) :
    s.Acts fits heard (t.departRecords g k c) :=
  (h.forRecords fun n r =>
    .of_verdict (departureVerdict_fixed (t.engine g) c n r) (departureVerdict_sound (t.engine g) c n)).remove g _

/-- R147, R149: an attach or reattach of a station. -/
theorem Part.Acts.attach (h : s.Acts fits heard t) (g : Segment) (hear : heard g) (k : Nat) (i : Identity)
    (notice : Bool) : s.Acts fits heard (t.attach g k i notice) :=
  (((h.withStation g k fun e _ => .single (.attached e i hear)).forRecords fun n r =>
    .of_verdict (attachVerdict_fixed i notice n r) (attachVerdict_sound i notice n)).remove g _).setFlags g

/-- R144: a station goes silent. -/
theorem Part.Acts.silenceStation (h : s.Acts fits heard t) (g : Segment) (hear : heard g) (k : Nat) {e : Station}
    (he : t.station g k = some e) (hs : e.state = .present)
    (reached : (t.control g).config.silenceLimit ≤ e.silence + 1) :
    s.Acts fits heard (t.silenceStation g k e (e.silence + 1)) := by
  refine ((h.withStation g k fun x hx => ?_).departRecords g k _).setFlags g
  rw [he, Option.some_inj] at hx
  subst hx
  split
  · exact .single (.absent e none)
  · exact .single (.silenced e hear hs reached)

/-- R143: the silence counter after a result below the limit. -/
theorem ExchangeResult.silenceAfter_range (r : ExchangeResult) (count limit : Nat)
    (h : ¬(r = .timeout ∧ limit ≤ r.silenceAfter count)) :
    r.silenceAfter count = 0 ∨ r.silenceAfter count = count ∨
      (r.silenceAfter count = count + 1 ∧ r.silenceAfter count < limit) := by
  unfold ExchangeResult.silenceAfter at h ⊢
  split
  · exact Or.inr (Or.inr ⟨rfl, by simpa using h⟩)
  · exact Or.inr (Or.inl rfl)
  all_goals exact Or.inl rfl

/-- R143, R144, R146: the outcome of a record exchange at its station. -/
theorem Part.Acts.stationResult (h : s.Acts fits heard t) (g : Segment) (hear : heard g) (o : ExchangeOutcome) :
    s.Acts fits heard (t.stationResult g o) := by
  unfold Part.stationResult
  split
  · exact h
  · next e he =>
    split
    · next hs =>
      dsimp only
      split
      · next hr =>
        obtain ⟨timeout, reached⟩ := hr
        rw [timeout] at reached ⊢
        exact h.silenceStation g hear _ he hs reached
      · next hr =>
        refine h.withStation g _ fun x hx => ?_
        rw [he, Option.some_inj] at hx
        subst hx
        exact .single (.counted e _ hear hs (o.result.silenceAfter_range _ _ hr))
    · exact h

/-- R146, R147, R149: the outcome of a PROBE at its station. -/
theorem Part.Acts.probeResult (h : s.Acts fits heard t) (g : Segment) (hear : heard g) (o : ExchangeOutcome) :
    s.Acts fits heard (t.probeResult g o) := by
  unfold Part.probeResult
  split
  · split
    · exact h.attach g hear ..
    · exact h.attach g hear ..
    · exact h
    · exact h
  · exact h

theorem Part.Acts.stationTakes (h : s.Acts fits heard t) (g : Segment) (hear : heard g) (o : ExchangeOutcome) :
    s.Acts fits heard (t.stationTakes g o) := by
  unfold Part.stationTakes
  split
  · exact h.probeResult g hear o
  · exact h.stationResult g hear o

/-- R151: an accepted STATION_BAR. -/
theorem Part.Acts.barStation (h : s.Acts fits heard t) (g : Segment) (k : Nat) (e : Station) :
    s.Acts fits heard (t.barStation g k e) := by
  have entered := h.withStation g k (new := ⟨.barred, e.identity, 0⟩) fun x _ => .single (.barred x e.identity)
  have told := (entered.forRecords (test := fun _ r => r.onStation g k) fun n r =>
    .of_verdict (barVerdict_fixed n r) (barVerdict_sound n)).setFlags g
  unfold Part.barStation
  dsimp only
  split
  · exact (entered.departRecords g k _).setFlags g
  · exact told
  · exact told
  · exact h

/-- R153: an accepted STATION_UNBAR. -/
theorem Part.Acts.unbarStation (h : s.Acts fits heard t) (g : Segment) (k : Nat) (e : Station) :
    s.Acts fits heard (t.unbarStation g k e) :=
  ((h.withStation g k fun x _ => .single (.absent x _)).forRecords fun n r =>
    .of_verdict (unbarVerdict_fixed n r) (unbarVerdict_sound n)).setFlags g

/-! ### Outcomes (R102) -/

theorem Record.onError_fixed (r : Record) (e : RecordError) : (r.onError e).record.fixed = r.fixed := by
  unfold Record.onError
  dsimp only
  split <;> rfl

theorem Record.failure_fixed (r : Record) (result : ExchangeResult) : (r.failure result).record.fixed = r.fixed := by
  unfold Record.failure
  split
  case h_4 e => exact r.onError_fixed e
  case h_5 | h_6 | h_7 => exact r.onError_fixed _
  all_goals rfl

theorem Record.success_fixed {r : Record} {k : ExchangeKind} {result : ExchangeResult} {e : Effect}
    (h : r.success k result = some e) : e.record.fixed = r.fixed := by
  unfold Record.success at h
  split at h
  case h_4 =>
    cases h
    split <;> rfl
  case h_8 => cases h
  all_goals
    cases h
    rfl

theorem Record.served_fixed (r : Record) (k : ExchangeKind) (result : ExchangeResult) :
    (r.served k result).record.fixed = r.fixed := by
  unfold Record.served
  rcases h : r.success k result with _ | e
  · exact r.failure_fixed result
  · exact Record.success_fixed h

theorem Record.aside_fixed (r : Record) (dirtyAfter : Bool) (k : ExchangeKind) (result : ExchangeResult) :
    (r.aside dirtyAfter k result).1.fixed = r.fixed := by
  unfold Record.aside
  split
  case h_7 => split <;> rfl
  all_goals rfl

theorem Part.Acts.putRetired (h : s.Acts fits heard t) {n : Nat} {r : Record} (hr : t.record n = some r)
    (loud : r.Sound → r.silentRetire = false) (c : Condition) :
    s.Acts fits heard (t.put n { r with state := .retired, condition := c } [.retired]) :=
  h.put hr ⟨Record.withReasons_fixed _ _, fun _ hs => hs.retired (loud hs) c⟩

/-- R50, R136: an owed CANCEL is placed. -/
theorem Part.Acts.oweCancel (h : s.Acts fits heard t) {n : Nat} {r : Record} (hr : t.record n = some r)
    (hk : r.kind = .guarded) : s.Acts fits heard (t.oweCancel n r) :=
  (h.withRecord hr ⟨by rfl, fun _ hs => hs.owing hk⟩).requeue _ fun _ => ⟨_, _, rfl⟩

/-- R33, R50, R137: the outcome of a RETIRING record. -/
theorem Part.Acts.retiringOutcome (h : s.Acts fits heard t) {n : Nat} {r : Record} (hr : t.record n = some r)
    (hs : r.state = .retiring) (o : ExchangeOutcome) (present torn : Bool) :
    s.Acts fits heard (t.retiringOutcome n r o present torn) := by
  unfold Part.retiringOutcome
  split
  · exact h.release n
  · next hsilent =>
    have loud : r.silentRetire = false := Bool.eq_false_iff.mpr hsilent
    split
    · split
      · exact h.put hr ⟨Record.withReasons_fixed _ _, fun _ hr => hr.closeWrite.retired loud _⟩
      · exact h.putRetired hr (fun _ => loud) _
    · split
      · next owed =>
        have hk := Record.guarded_of_cancelOwed owed
        split
        · refine h.withRecord hr ⟨rfl, fun _ hr => ?_⟩
          simpa [hs] using hr.owing hk
        · split
          · exact h.oweCancel hr hk
          · exact h.putRetired hr (fun _ => loud) _
      · exact h.putRetired hr (fun _ => loud) r.condition

/-- R102: the outcome on the record that it served. -/
theorem Part.Acts.outcomeOn (h : s.Acts fits heard t) {n : Nat} {r : Record} (hr : t.record n = some r)
    {o : ExchangeOutcome} (ho : fits → o.Fits r) (present torn : Bool) :
    s.Acts fits heard (t.outcomeOn n r o present torn) := by
  have aside : ∀ dirty, r.supersedes o.exchange = false → s.Acts fits heard (t.put n
      (r.aside dirty o.exchange.kind o.result).1 (r.aside dirty o.exchange.kind o.result).2) := fun dirty hsup =>
    h.put hr ⟨(Record.withReasons_fixed _ _).trans (r.aside_fixed ..), fun hf hs =>
      (hs.aside hsup (ho hf) dirty).withReasons _⟩
  have served : r.state.served = true → s.Acts fits heard (if r.supersedes o.exchange then t
      else if !present then t.put n (r.aside r.rewritten o.exchange.kind o.result).1
        (r.aside r.rewritten o.exchange.kind o.result).2
      else (t.put n (r.served o.exchange.kind o.result).record (r.served o.exchange.kind o.result).reasons).place
        r.segment n (r.served o.exchange.kind o.result).placement) := fun hserved => by
    split
    · exact h
    · next hsup =>
      have hsup := Bool.eq_false_iff.mpr hsup
      split
      · exact aside _ hsup
      · exact (h.put hr ⟨(Record.withReasons_fixed _ _).trans (r.served_fixed ..), fun hf hs =>
          (hs.served hserved hsup (ho hf)).withReasons _⟩).place ..
  unfold Part.outcomeOn
  dsimp only
  split
  case h_1 hs => exact h.retiringOutcome hr hs ..
  case h_2 => exact h
  case h_3 =>
    split
    · exact h
    · next hsup => exact aside _ (Bool.eq_false_iff.mpr hsup)
  case h_4 hs | h_5 hs | h_6 hs => exact served (by rw [hs]; rfl)

/-- R71: the outcome fits the record that it serves. -/
def Part.Awaits (s : Part) (o : ExchangeOutcome) : Prop :=
  ∀ n r, o.exchange.slot = some n → s.record n = some r → o.Fits r

theorem Part.Acts.takeOutcome (h : s.Acts fits heard t) {o : ExchangeOutcome} (ho : fits → s.Awaits o) (torn : Bool) :
    s.Acts fits heard (t.takeOutcome o torn) := by
  unfold Part.takeOutcome
  split
  · exact h
  · next n hn =>
    split
    · exact h
    · next r hr =>
      refine h.outcomeOn hr (fun hf => ?_) ..
      obtain ⟨q, hq, fixed, -⟩ := h.records n r hr
      obtain ⟨-, -, -, -, -, -, length⟩ := (Record.fixed_eq_iff r q).mp fixed
      intro bytes hk hb
      rw [length]
      exact ho hf n q hn hq bytes hk hb

/-! ### The teardown of the records (R170) -/

theorem tornVerdict_fixed (store : Nat → Bool) (n : Nat) (r : Record) : (tornVerdict store n r).1.fixed = r.fixed := by
  obtain ⟨r₀, hr₀, stored⟩ : ∃ r₀, r₀ = (if r.kind = .output && store n then { r with dirty := true } else r) ∧
      r₀.fixed = r.fixed := by
    refine ⟨_, rfl, ?_⟩
    split <;> rfl
  unfold tornVerdict
  rw [← hr₀]
  dsimp only
  split
  case h_6 => rfl
  all_goals repeat' split
  all_goals exact stored

theorem Part.Acts.tearRecords (h : s.Acts fits heard t) (g : Segment) (x : Option Exchange) :
    s.Acts fits heard (t.tearRecords g x) :=
  ((h.forRecords fun n r => .of_verdict (tornVerdict_fixed (abandonedStore x) n r)
    (tornVerdict_sound (abandonedStore x) n)).requeue g fun _ => ⟨[], [], rfl⟩).foldl _ fun _ n _ h => h.release n

/-! ### Cycle steps (R80, R81) -/

theorem stepVerdict_fixed (n : Nat) (r : Record) : (stepVerdict n r).1.fixed = r.fixed := by
  unfold stepVerdict
  dsimp only
  split <;> rfl

theorem Record.started_fixed (r : Record) : r.started.fixed = r.fixed := by
  unfold Record.started
  split
  · rfl
  · rfl
  · split <;> rfl

end Acts

end Sys2Proof.Machine
end

section
/-! SUPPORT. What the claims on the line and on a segment's life can do to the part, said once (`Part.Runs`): they leave the
table and the stations alone, and an exchange in flight, and the outcome made of it, keep the length that it was made for. -/

namespace Sys2Proof.Machine

/-! ### The engine -/

/-- R61, R62: an exchange of this length is in flight for the slot, or may start for it: `own` says for which lengths. -/
def Engine.Sized (e : Engine) (own : Nat → Nat → Prop) (n length : Nat) : Prop :=
  (∃ x, e.exchange = some x ∧ x.slot = some n ∧ x.length = length) ∨ own n length

/-- R71: DATA to a FETCH that was made for this length has it. -/
def ExchangeOutcome.Carries (o : ExchangeOutcome) (length : Nat) : Prop :=
  ∀ bytes, o.exchange.kind = .fetch → o.result = .data bytes → bytes.length = length

/-- What a claim on the line does to a probe cursor in its range, to the exchange in flight, and to the outcomes handed over. -/
structure Engine.Flies (own : Nat → Nat → Prop) (e e' : Engine) : Prop where
  cursor : 1 ≤ e.probeCursor ∧ e.probeCursor ≤ 30 → 1 ≤ e'.probeCursor ∧ e'.probeCursor ≤ 30
  exchange : ∀ x n, e'.exchange = some x → x.slot = some n → e.Sized own n x.length
  outcomes : ∀ o ∈ e'.toTable, (∃ o₀ ∈ e.toTable, o₀.exchange = o.exchange ∧ o₀.result = o.result) ∨
    ∃ n length, o.exchange.slot = some n ∧ e.Sized own n length ∧ o.Carries length

/-- A claim that starts no exchange: without one in flight none is made, and no outcome. -/
structure Engine.Runs (own : Nat → Nat → Prop) (e e' : Engine) : Prop extends Engine.Flies own e e' where
  rests : e.exchange = none → e'.exchange = none ∧ (e.toStations = [] → e'.toStations = [])

section Engine
variable {own : Nat → Nat → Prop} {e e' e'' : Engine}

theorem Engine.Sized.of_flies (h : e.Flies own e') {n length : Nat} (hs : e'.Sized own n length) :
    e.Sized own n length := by
  obtain ⟨x, hx, hn, rfl⟩ | ho := hs
  · exact h.exchange x n hx hn
  · exact Or.inr ho

theorem Engine.Flies.trans (h : e.Flies own e') (k : e'.Flies own e'') : e.Flies own e'' where
  cursor := fun hc => k.cursor (h.cursor hc)
  exchange := fun x n hx hn => (k.exchange x n hx hn).of_flies h
  outcomes := fun o ho => by
    obtain ⟨o₁, h₁, ex₁, res₁⟩ | ⟨n, length, hn, hs, hc⟩ := k.outcomes o ho
    · obtain ⟨o₀, h₀, ex₀, res₀⟩ | ⟨n, length, hn, hs, hc⟩ := h.outcomes o₁ h₁
      · exact Or.inl ⟨o₀, h₀, ex₀.trans ex₁, res₀.trans res₁⟩
      · refine Or.inr ⟨n, length, ex₁ ▸ hn, hs, fun bytes hk hb => hc bytes ?_ ?_⟩
        · rw [ex₁]; exact hk
        · rw [res₁]; exact hb
    · exact Or.inr ⟨n, length, hn, hs.of_flies h, hc⟩

theorem Engine.Runs.trans (h : e.Runs own e') (k : e'.Runs own e'') : e.Runs own e'' where
  toFlies := h.toFlies.trans k.toFlies
  rests := fun hx => by
    obtain ⟨hx', ht'⟩ := h.rests hx
    obtain ⟨hx'', ht''⟩ := k.rests hx'
    exact ⟨hx'', fun ht => ht'' (ht' ht)⟩

/-- A claim that keeps the exchange, the cursor and what is handed over. -/
theorem Engine.Runs.of_eq (cursor : e'.probeCursor = e.probeCursor) (exchange : e'.exchange = e.exchange)
    (toTable : e'.toTable = e.toTable) (toStations : e'.toStations = e.toStations) : e.Runs own e' where
  cursor := fun h => cursor ▸ h
  exchange := fun x _ hx hn => Or.inl ⟨x, exchange ▸ hx, hn, rfl⟩
  outcomes := fun o ho => Or.inl ⟨o, toTable ▸ ho, rfl, rfl⟩
  rests := fun h => ⟨exchange ▸ h, fun ht => toStations ▸ ht⟩

theorem Engine.Runs.refl (own : Nat → Nat → Prop) (e : Engine) : e.Runs own e := .of_eq rfl rfl rfl rfl

/-- Time passes. -/
theorem Engine.Runs.elapse (e : Engine) (t : Nat) : e.Runs own (e.elapse t) where
  cursor := id
  exchange := fun x _ hx hn => by
    obtain ⟨y, hy, rfl⟩ := Option.map_eq_some_iff.mp hx
    exact Or.inl ⟨y, hy, hn, rfl⟩
  outcomes := fun o ho => Or.inl ⟨o, ho, rfl, rfl⟩
  rests := fun h => ⟨by simp [Engine.elapse, h], id⟩

/-- R77, R98: a MARK called for. -/
theorem Engine.Runs.callMark (e : Engine) (c : SegmentConfig) : e.Runs own (e.callMark c) := by
  unfold Engine.callMark
  split <;> exact .of_eq rfl rfl rfl rfl

/-- R75, R99: the engine is torn down. -/
theorem Engine.Runs.teardown (e : Engine) : e.Runs own e.teardown where
  cursor := fun _ => ⟨le_refl 1, Nat.le_of_ble_eq_true rfl⟩
  exchange := nofun
  outcomes := fun o ho => Or.inl ⟨o, ho, rfl, rfl⟩
  rests := fun _ => ⟨rfl, id⟩

/-- R73: an exchange completes. -/
theorem Engine.Runs.complete (e : Engine) (c : SegmentConfig) (r : ExchangeResult)
    (fits : ∀ x, e.exchange = some x → ExchangeOutcome.Carries ⟨x, r, none⟩ x.length) : e.Runs own (e.complete c r) := by
  unfold Engine.complete
  split
  · exact .refl own e
  · next x hx =>
    refine { cursor := id, exchange := nofun, outcomes := fun o ho => ?_, rests := fun h => by rw [h] at hx; cases hx }
    dsimp only at ho
    split at ho
    · next hslot =>
      obtain ⟨n, hn⟩ := Option.isSome_iff_exists.mp hslot
      obtain ho | ho := List.mem_append.mp ho
      · exact Or.inl ⟨o, ho, rfl, rfl⟩
      · obtain rfl := List.mem_singleton.mp ho
        exact Or.inr ⟨n, x.length, hn, Or.inl ⟨x, hx, hn, rfl⟩, fits x hx⟩
    · exact Or.inl ⟨o, ho, rfl, rfl⟩

/-- R73: an exchange completes without DATA. -/
theorem Engine.Runs.fail (e : Engine) (c : SegmentConfig) {r : ExchangeResult} (h : ∀ bytes, r ≠ .data bytes) :
    e.Runs own (e.complete c r) :=
  .complete e c r fun _ _ bytes _ hb => absurd hb (h bytes)

/-- R61, R164: a PROBE serves no record. -/
theorem Engine.Flies.startProbe (e : Engine) (c : SegmentConfig) (station : Nat) :
    e.Flies own (e.startProbe c station) where
  cursor := id
  exchange := fun x _ hx hn => by
    cases hx
    cases hn
  outcomes := fun o ho => Or.inl ⟨o, ho, rfl, rfl⟩

/-- R61, R90: an exchange starts. -/
theorem Engine.Flies.startExchange (e : Engine) (c : SegmentConfig) {x : Exchange} (frame : List Byte) {n : Nat}
    (hn : x.slot = some n) (h : own n x.length) : e.Flies own (e.startExchange c x frame) where
  cursor := id
  exchange := fun y m hy hm => by
    cases hy
    rw [hn, Option.some_inj] at hm
    exact Or.inr (hm ▸ h)
  outcomes := fun o ho => Or.inl ⟨o, ho, rfl, rfl⟩

/-! ### A complete reply (R71) -/

theorem cleanResult_data {k : ReplyKind} {payload bytes : List Byte} (h : cleanResult k payload = .data bytes) :
    k = .data ∧ payload = bytes := by
  unfold cleanResult at h
  split at h
  case h_1 => exact ⟨rfl, ExchangeResult.data.inj h⟩
  case h_5 => split at h <;> cases h
  all_goals cases h

/-- R62, R71: clean DATA to a FETCH has the length that the exchange was made for. -/
theorem judgeHeader_data {x : Exchange} {kind station object : Byte} {payload bytes : List Byte}
    (hk : x.kind = .fetch) (h : judgeHeader x kind station object payload = .data bytes) : bytes.length = x.length := by
  unfold judgeHeader at h
  split at h
  · cases h
  · split at h
    · cases h
    · next r n hr =>
      split at h
      · cases h
      · split at h
        · cases h
        · split at h
          · cases h
          · next hshort hlong =>
            obtain ⟨rfl, rfl⟩ := cleanResult_data h
            obtain ⟨q, -, hq⟩ := Option.bind_eq_some_iff.mp hr
            obtain ⟨m, hm, hqn⟩ := Option.map_eq_some_iff.mp hq
            cases hqn
            simp only [hk, ExchangeKind.expected, Option.some_inj] at hm
            omega

theorem judge_data {x : Exchange} {received bytes : List Byte} (hk : x.kind = .fetch)
    (h : judge x received = .data bytes) : bytes.length = x.length := by
  unfold judge at h
  dsimp only at h
  split at h
  · cases h
  · split at h
    · exact judgeHeader_data hk h
    · cases h

/-! ### The claims of an exchange -/

theorem Engine.Runs.endMark (e : Engine) (c : SegmentConfig) : e.Runs own (e.endMark c) := by
  unfold Engine.endMark
  split
  · next left _ _ => exact (Engine.Runs.elapse e left).trans (.of_eq rfl rfl rfl rfl)
  · exact .refl own e

theorem Engine.Runs.endRequest (e : Engine) (c : SegmentConfig) : e.Runs own (e.endRequest c) := by
  unfold Engine.endRequest
  split
  · next left _ _ _ => exact (Engine.Runs.elapse e left).trans (.of_eq rfl rfl rfl rfl)
  · exact .refl own e

theorem Engine.Runs.expireWindow (e : Engine) (c : SegmentConfig) : e.Runs own (e.expireWindow c) := by
  unfold Engine.expireWindow
  split
  · next left _ => exact (Engine.Runs.elapse e left).trans (.fail _ c nofun)
  · exact .refl own e

theorem Engine.Runs.startReply (e : Engine) (c : SegmentConfig) (elapsed : Nat) : e.Runs own (e.startReply c elapsed) := by
  unfold Engine.startReply
  split
  · split
    · exact (Engine.Runs.elapse e elapsed).trans (.of_eq rfl rfl rfl rfl)
    · exact .refl own e
  · exact .refl own e

theorem Engine.Runs.listen (e : Engine) (c : SegmentConfig) (line : List Bool) : e.Runs own (e.listen c line) := by
  unfold Engine.listen
  split
  · exact .startReply ..
  · exact .refl own e

/-- R69 to R71: a good character; `x` is the exchange in flight, but for the time that has passed. -/
theorem Engine.Runs.takeByte (e : Engine) (c : SegmentConfig) {x : Exchange} (deadline : Nat) (received : List Byte)
    (hx : ∀ y, e.exchange = some y → y.kind = x.kind ∧ y.length = x.length) :
    e.Runs own (e.takeByte c x deadline received) := by
  unfold Engine.takeByte
  split
  · exact .fail e c nofun
  · split
    · refine .complete e c _ fun y hy bytes hk hb => ?_
      obtain ⟨kind, length⟩ := hx y hy
      rw [length]
      exact judge_data (kind ▸ hk) hb
    · exact .of_eq rfl rfl rfl rfl

theorem Engine.Runs.receive (e : Engine) (c : SegmentConfig) (elapsed : Nat) (b : Byte) (stopBit : Bool) :
    e.Runs own (e.receive c elapsed b stopBit) := by
  unfold Engine.receive
  split
  · next x _ hx =>
    split
    · split
      · refine (Engine.Runs.elapse e elapsed).trans (.takeByte _ c _ _ fun y hy => ?_)
        simp only [Engine.elapse, hx, Option.map_some, Option.some_inj] at hy
        exact hy ▸ ⟨rfl, rfl⟩
      · exact (Engine.Runs.elapse e elapsed).trans (.fail _ c nofun)
    · exact .refl own e
  · exact .refl own e

theorem Engine.Runs.sampleCharacter (e : Engine) (c : SegmentConfig) (elapsed : Nat) (before : Bool) (line : List Bool) :
    e.Runs own (e.sampleCharacter c elapsed before line) := by
  unfold Engine.sampleCharacter
  split
  · exact .receive ..
  · exact .refl own e

theorem Engine.Runs.expireGap (e : Engine) (c : SegmentConfig) : e.Runs own (e.expireGap c) := by
  unfold Engine.expireGap
  split
  · split
    · exact (Engine.Runs.elapse e _).trans (.fail _ c nofun)
    · exact .refl own e
  · exact .refl own e

theorem Engine.Runs.expireDeadline (e : Engine) (c : SegmentConfig) : e.Runs own (e.expireDeadline c) := by
  unfold Engine.expireDeadline
  split
  · exact (Engine.Runs.elapse e _).trans (.fail _ c nofun)
  · exact .refl own e

end Engine

/-! ### The part -/

/-- R141, R169: the segment has no traffic, and no Station Directory's part of a teardown waits. -/
def Part.Quiet (s : Part) (g : Segment) : Prop :=
  (s.control g).state.onLine = false ∧ (s.control g).stationTeardowns = 0

/-- The settings stay, and a segment that comes to be quiet was so, and nothing happened on its line. -/
def Part.Calm (s t : Part) : Prop :=
  ∀ g, (t.control g).config = (s.control g).config ∧
    (t.Quiet g → s.Quiet g ∧ ((s.engine g).exchange = none → (t.engine g).exchange = none ∧
      ((s.engine g).toStations = [] → (t.engine g).toStations = [])))

/-- R15: the slot holds a record of this length. -/
def Part.HasLength (s : Part) (n length : Nat) : Prop := ∃ r, s.record n = some r ∧ r.length = length

/-- What the claims of the engines, the controllers and the buses can do to the part; `calm` leaves out SEGMENT_CONFIGURE and
the Station Directory's part of a teardown. -/
structure Part.Runs (calm : Prop) (s t : Part) : Prop where
  slots : t.slots = s.slots
  buffers : ∀ p f, (t.port p).buffer = .submitted f → (s.port p).buffer = .submitted f ∨ f.tag ≤ 65535
  stations : ∀ g, (t.seg g).stations = (s.seg g).stations
  engines : ∀ g, (s.engine g).Flies s.HasLength (t.engine g)
  calm : calm → s.Calm t

section Part
variable {calm : Prop} {s t u : Part}

theorem Part.Calm.refl (s : Part) : s.Calm s := fun _ => ⟨rfl, fun h => ⟨h, fun hx => ⟨hx, id⟩⟩⟩

theorem Part.Calm.trans (h : s.Calm t) (k : t.Calm u) : s.Calm u := fun g => by
  obtain ⟨hconfig, hquiet⟩ := h g
  obtain ⟨kconfig, kquiet⟩ := k g
  refine ⟨kconfig.trans hconfig, fun q => ?_⟩
  obtain ⟨q', krests⟩ := kquiet q
  obtain ⟨q'', hrests⟩ := hquiet q'
  refine ⟨q'', fun hx => ?_⟩
  obtain ⟨hx', ht'⟩ := hrests hx
  obtain ⟨hx'', ht''⟩ := krests hx'
  exact ⟨hx'', fun ht => ht'' (ht' ht)⟩

theorem Part.hasLength_congr (h : t.slots = s.slots) : t.HasLength = s.HasLength := by
  funext n length
  simp [Part.HasLength, Part.record_congr h]

theorem Part.Runs.refl (calm : Prop) (s : Part) : s.Runs calm s where
  slots := rfl
  buffers := fun _ _ => Or.inl
  stations := fun _ => rfl
  engines := fun g => (Engine.Runs.refl s.HasLength (s.engine g)).toFlies
  calm := fun _ => .refl s

theorem Part.Runs.trans (h : s.Runs calm t) (k : t.Runs calm u) : s.Runs calm u where
  slots := k.slots.trans h.slots
  buffers := fun p f hf => (k.buffers p f hf).elim (h.buffers p f) Or.inr
  stations := fun g => (k.stations g).trans (h.stations g)
  engines := fun g => (h.engines g).trans ((Part.hasLength_congr h.slots) ▸ k.engines g)
  calm := fun hc => (h.calm hc).trans (k.calm hc)

/-- A change of a segment's engine; where an exchange may start, the segment has traffic. -/
theorem Part.Runs.updateEngine (h : s.Runs calm t) (g : Segment) {f : Engine → Engine}
    (flies : (t.engine g).Flies t.HasLength (f (t.engine g)))
    (rests : t.Quiet g → (t.engine g).exchange = none → (f (t.engine g)).exchange = none ∧
      ((t.engine g).toStations = [] → (f (t.engine g)).toStations = [])) :
    s.Runs calm (t.updateEngine g f) :=
  h.trans
    { slots := by simp
      buffers := fun p f hf => Or.inl (by simpa using hf)
      stations := fun k => by simp
      engines := fun k => by
        rw [Part.updateEngine_engine_eq]
        split
        · next hk => exact hk ▸ flies
        · exact (Engine.Runs.refl _ _).toFlies
      calm := fun _ k => by
        refine ⟨by simp, fun hq => ?_⟩
        have hq : t.Quiet k := by simpa [Part.Quiet] using hq
        refine ⟨hq, ?_⟩
        rw [Part.updateEngine_engine_eq]
        split
        · next hk => exact hk ▸ rests (hk ▸ hq)
        · exact fun hx => ⟨hx, id⟩ }

/-- A change of a segment's engine that starts no exchange. -/
theorem Part.Runs.engine (h : s.Runs calm t) (g : Segment) {f : Engine → Engine}
    (runs : (t.engine g).Runs t.HasLength (f (t.engine g))) : s.Runs calm (t.updateEngine g f) :=
  h.updateEngine g runs.toFlies fun _ => runs.rests

/-- A change of the engine of a segment that has traffic. -/
theorem Part.Runs.busyEngine (h : s.Runs calm t) (g : Segment) {f : Engine → Engine}
    (flies : (t.engine g).Flies t.HasLength (f (t.engine g))) (busy : (t.control g).state.onLine = true) :
    s.Runs calm (t.updateEngine g f) :=
  h.updateEngine g flies fun hq => by rw [hq.1] at busy; cases busy

theorem Part.updateControl_control_eq (s : Part) (g k : Segment) (f : Control → Control) :
    (s.updateControl g f).control k = if k = g then f (s.control k) else s.control k := by
  split
  · next h => rw [h, Part.updateControl_control]
  · next h => exact congrArg SegmentUnit.control (s.updateControl_seg_ne g k f h)

/-- A change of a segment's controller. -/
theorem Part.Runs.updateControl (h : s.Runs calm t) (g : Segment) {f : Control → Control}
    (hf : calm → (f (t.control g)).config = (t.control g).config ∧
      ((f (t.control g)).state.onLine = false → (f (t.control g)).stationTeardowns = 0 → t.Quiet g)) :
    s.Runs calm (t.updateControl g f) :=
  h.trans
    { slots := by simp
      buffers := fun p f hf => Or.inl (by simpa using hf)
      stations := fun k => by simp
      engines := fun k => by
        rw [Part.updateControl_engine]
        exact (Engine.Runs.refl _ _).toFlies
      calm := fun hc k => by
        obtain ⟨config, quiet⟩ := hf hc
        simp only [Part.Quiet, Part.updateControl_control_eq, Part.updateControl_engine]
        split
        · next hk =>
          subst hk
          exact ⟨config, fun hq => ⟨quiet hq.1 hq.2, fun hx => ⟨hx, id⟩⟩⟩
        · exact ⟨rfl, fun hq => ⟨hq, fun hx => ⟨hx, id⟩⟩⟩ }

/-- A change of a segment's controller that keeps its state, its settings and the teardowns handed out. -/
theorem Part.Runs.control (h : s.Runs calm t) (g : Segment) {f : Control → Control}
    (config : ∀ c, (f c).config = c.config) (state : ∀ c, (f c).state = c.state)
    (teardowns : ∀ c, (f c).stationTeardowns = c.stationTeardowns) : s.Runs calm (t.updateControl g f) :=
  h.updateControl g fun _ => ⟨config _, fun hs ht => ⟨state _ ▸ hs, teardowns _ ▸ ht⟩⟩

theorem Part.Runs.setFlags (h : s.Runs calm t) (g : Segment) : s.Runs calm (t.setFlags g) :=
  h.trans
    { slots := rfl
      buffers := fun p f hf => Or.inl (by
        rw [← hf]
        cases p <;> cases g <;> rfl)
      stations := fun k => by simp
      engines := fun k => by
        rw [Part.setFlags_engine]
        exact (Engine.Runs.refl _ _).toFlies
      calm := fun _ k => by
        simp only [Part.Quiet, Part.setFlags_control, Part.setFlags_engine]
        exact ⟨trivial, fun hq => ⟨hq, fun hx => ⟨hx, id⟩⟩⟩ }

/-! ### The life of a segment -/

/-- R158: the segment changes its state; it comes to be without traffic only from a state without it, or with a teardown
handed out. -/
theorem Part.Runs.enterState (h : s.Runs calm t) (g : Segment) {new : SegmentState}
    (hq : new.onLine = false → (t.control g).stationTeardowns = 0 → (t.control g).state.onLine = false) :
    s.Runs calm (t.enterState g new) :=
  (h.updateControl g fun _ => ⟨rfl, fun hs ht => ⟨hq hs ht, ht⟩⟩).setFlags g

/-- R158: the segment enters a state with traffic. -/
theorem Part.Runs.enterBusy (h : s.Runs calm t) (g : Segment) {new : SegmentState} (busy : new.onLine = true) :
    s.Runs calm (t.enterState g new) :=
  h.enterState g fun c => by rw [busy] at c; cases c

theorem Part.Runs.scanPosition (h : s.Runs calm t) (g : Segment) (position : Option Nat) :
    s.Runs calm (t.updateControl g fun c => { c with scanPosition := position }) :=
  h.control g (fun _ => rfl) (fun _ => rfl) fun _ => rfl

/-- R165: the scan ends. -/
theorem Part.Runs.endScan (h : s.Runs calm t) (g : Segment) : s.Runs calm (t.endScan g) := by
  unfold Part.endScan
  dsimp only
  exact .engine (.enterBusy (.scanPosition h g none) g (by rfl)) g (.callMark ..)

/-- R164: the turn of the scan passes. -/
theorem Part.Runs.scanFrom (h : s.Runs calm t) (g : Segment) (position : Nat) : s.Runs calm (t.scanFrom g position) := by
  unfold Part.scanFrom
  split
  · exact h.scanPosition g _
  · exact h.endScan g

/-- R99, R168: the teardown of a segment is handed out. -/
theorem Part.Runs.tearDown (h : s.Runs calm t) (g : Segment) (new : SegmentState) : s.Runs calm (t.tearDown g new) := by
  refine ((h.updateControl g ?_).enterState g ?_).engine g (.teardown _)
  · exact fun _ => ⟨rfl, fun _ ht => absurd ht (Nat.succ_ne_zero _)⟩
  · simp

theorem Part.Runs.expireCycle (s : Part) (g : Segment) : s.Runs calm (s.expireCycle g) := by
  unfold Part.expireCycle
  dsimp only
  split
  · exact (Part.Runs.refl calm s).engine g (.of_eq rfl rfl rfl rfl)
  · exact .refl calm s

theorem Part.Runs.endSettling (s : Part) (g : Segment) : s.Runs calm (s.endSettling g) := by
  unfold Part.endSettling
  split
  · next left _ =>
    have ready : s.Runs calm (s.updateEngine g fun e => { e.elapse left with state := .ready }) :=
      (Part.Runs.refl calm s).engine g ((Engine.Runs.elapse _ left).trans (.of_eq rfl rfl rfl rfl))
    dsimp only
    split
    · exact ready.engine g (.callMark ..)
    · split
      · exact ready.scanFrom g _
      · exact ready
  · exact .refl calm s

/-- R94: the cursor's search finds one of the 30 stations. -/
theorem probeOrder_le {cursor n : Nat} (hc : cursor ≤ 30) (h : n ∈ probeOrder cursor) : n ≤ 30 := by
  simp only [probeOrder, Config.stationCount, List.mem_append, List.mem_range'_1] at h
  omega

theorem nextStation_range {n : Nat} (h : n ≤ 30) : 1 ≤ nextStation n ∧ nextStation n ≤ 30 := by
  unfold nextStation Config.stationCount
  split <;> omega

/-- R94: a PROBE is considered. -/
theorem Part.Runs.considerProbe (s : Part) (g : Segment) (elapsed : Nat) (busy : (s.control g).state.onLine = true) :
    s.Runs calm (s.considerProbe g elapsed) := by
  unfold Part.considerProbe
  split
  · next n _ hn _ =>
    dsimp only
    split
    · refine (Part.Runs.refl calm s).busyEngine g (Engine.Flies.trans (Engine.Runs.elapse _ elapsed).toFlies ?_) busy
      have started : ((s.engine g).elapse elapsed).Flies s.HasLength _ :=
        .startProbe ((s.engine g).elapse elapsed) (s.control g).config n
      exact { started with
        cursor := fun hc => nextStation_range (probeOrder_le hc.2 (List.mem_of_find?_eq_some hn)) }
    · exact (Part.Runs.refl calm s).engine g ((Engine.Runs.elapse _ elapsed).trans (.of_eq rfl rfl rfl rfl))
  · exact .refl calm s

/-- R164: the PROBE of the station whose turn has come. -/
theorem Part.Runs.startScanProbe (s : Part) (g : Segment) : s.Runs calm (s.startScanProbe g) := by
  unfold Part.startScanProbe
  split
  · next hs _ _ _ =>
    split
    · refine .busyEngine (.scanPosition (.refl calm s) g _) g (.startProbe ..) ?_
      simp [hs, SegmentState.onLine]
    · exact (Part.Runs.refl calm s).endScan g
  · exact .refl calm s

theorem Part.Runs.expireSettle (s : Part) (g : Segment) : s.Runs calm (s.expireSettle g) := by
  unfold Part.expireSettle
  split
  · refine .scanFrom (.enterBusy (.control (.refl calm s) g ?_ ?_ ?_) g (by rfl)) g 1 <;> exact fun _ => rfl
  · exact .refl calm s

theorem Part.Runs.supply (s : Part) (g : Segment) (level : Bool) : s.Runs calm (s.supply g level) := by
  have levelled : s.Runs calm (s.updateControl g fun c => { c with faultIn := level }) :=
    (Part.Runs.refl calm s).control g (fun _ => rfl) (fun _ => rfl) fun _ => rfl
  unfold Part.supply
  dsimp only
  split
  · exact levelled.tearDown g .fault
  · exact levelled

/-! ### The segment's commands -/

theorem Part.Runs.commandOn (s : Part) (g : Segment) : s.Runs calm (s.commandOn g).1 := by
  unfold Part.commandOn
  split
  · next hs =>
    have powered := ((Part.Runs.refl calm s).control g (f := fun c =>
      { c with powerOut := true, settleTimer := some c.config.settleLength, scanPosition := none })
      (fun _ => rfl) (fun _ => rfl) fun _ => rfl).enterState g (new := .powering) fun _ _ => by
        simp [hs, SegmentState.onLine]
    dsimp only
    split
    · exact powered.tearDown g .fault
    · exact powered
  all_goals exact .refl calm s

theorem Part.Runs.commandOff (s : Part) (g : Segment) : s.Runs calm (s.commandOff g).1 := by
  unfold Part.commandOff
  split
  · exact .refl calm s
  · next hs => exact (Part.Runs.refl calm s).enterState g fun _ _ => by simp [hs, SegmentState.onLine]
  all_goals exact (Part.Runs.refl calm s).tearDown g .off

theorem Part.Runs.commandHold (s : Part) (g : Segment) : s.Runs calm (s.commandHold g).1 := by
  unfold Part.commandHold
  split
  · dsimp only
    exact .engine (.enterBusy (.refl calm s) g (by rfl)) g (.of_eq (by rfl) (by rfl) (by rfl) (by rfl))
  all_goals exact .refl calm s

theorem Part.Runs.commandRelease (s : Part) (g : Segment) : s.Runs calm (s.commandRelease g).1 := by
  unfold Part.commandRelease
  split
  · dsimp only
    exact .engine (.enterBusy (.refl calm s) g (by rfl)) g (.callMark ..)
  all_goals exact .refl calm s

/-! ### The buses -/

/-- R57, R187: a number of two bytes. -/
theorem ofBe16_le (hi lo : Byte) : ofBe16 hi lo ≤ 65535 := by
  have := hi.isLt
  have := lo.isLt
  unfold ofBe16
  omega

/-- R187: the tag of a frame is two bytes. -/
theorem frameOf_tag_le {bytes : List Byte} {f : RequestFrame} (h : frameOf bytes = some f) : f.tag ≤ 65535 := by
  unfold frameOf at h
  split at h
  · split at h
    · cases h
      exact ofBe16_le _ _
    · cases h
  · cases h

/-- R186, R188: what stands SUBMITTED after a run of request bytes stood there before, or is the frame that they make. -/
theorem Buffer.submit_submitted {b : Buffer} {bytes : List Byte} {f : RequestFrame}
    (h : b.submit bytes = .submitted f) : b = .submitted f ∨ f.tag ≤ 65535 := by
  unfold Buffer.submit at h
  split at h
  · next f' hf =>
    unfold Buffer.take at h
    split at h
    · cases h
      exact Or.inr (frameOf_tag_le hf)
    · cases h
  · cases h
  · exact Or.inl h
  · cases h

/-- R196, R199: collecting a response makes no request. -/
theorem Buffer.collect_submitted {b : Buffer} {clocked : Nat} {f : RequestFrame}
    (h : b.collect clocked = .submitted f) : b = .submitted f := by
  unfold Buffer.collect at h
  split at h
  · split at h <;> cases h
  · cases h
  · exact h

/-- A claim of a bus changes what the ports' buffers hold and what goes out, and nothing else that a statement about records
or stations speaks of. -/
theorem Part.Runs.bus (slots : t.slots = s.slots)
    (buffers : ∀ p f, (t.port p).buffer = .submitted f → (s.port p).buffer = .submitted f ∨ f.tag ≤ 65535)
    (segs : ∀ g, t.seg g = s.seg g) : s.Runs calm t where
  slots := slots
  buffers := buffers
  stations := fun g => by rw [segs g]
  engines := fun g => by
    unfold Part.engine
    rw [segs g]
    exact (Engine.Runs.refl _ _).toFlies
  calm := fun _ g => by
    unfold Part.Quiet Part.engine Part.control
    rw [segs g]
    exact ⟨rfl, fun hq => ⟨hq, fun hx => ⟨hx, id⟩⟩⟩

/-- R194: an operation of Port 0, by what it makes of the buffer. -/
theorem Part.Runs.onPort0 {α : Type} (s : Part) (tr : Spi α) (out : α → Part → List Byte) (b : α → Buffer → Buffer)
    (hb : ∀ a c f, b a c = .submitted f → c = .submitted f ∨ f.tag ≤ 65535) :
    s.Runs calm (s.onPort0 tr fun a s => s.transact (out a s) (b a s.port0.buffer)) := by
  have seg : ∀ (c : Part), c.segA = s.segA → c.segB = s.segB → ∀ g, c.seg g = s.seg g := fun _ ha hb g => by
    cases g
    · exact ha
    · exact hb
  have same : ∀ (c : Part), c.port0.buffer = s.port0.buffer → c.port1.buffer = s.port1.buffer → ∀ p f,
      (c.port p).buffer = .submitted f → (s.port p).buffer = .submitted f ∨ f.tag ≤ 65535 := fun _ h0 h1 p f hf => by
    cases p
    · exact Or.inl (h0 ▸ hf)
    · exact Or.inl (h1 ▸ hf)
  have operated : ∀ (c : Part) a, c.port0.buffer = b a s.port0.buffer → c.port1.buffer = s.port1.buffer → ∀ p f,
      (c.port p).buffer = .submitted f → (s.port p).buffer = .submitted f ∨ f.tag ≤ 65535 := fun _ a h0 h1 p f hf => by
    cases p
    · exact hb a _ f (h0 ▸ hf)
    · exact Or.inl (h1 ▸ hf)
  cases tr with
  | fall => exact .bus rfl (same _ rfl rfl) (seg _ rfl rfl)
  | rise => exact .bus rfl (same _ rfl rfl) (seg _ rfl rfl)
  | whole a => exact .bus rfl (operated _ a rfl rfl) (seg _ rfl rfl)
  | rest a =>
    unfold Part.onPort0 Part.afterFall
    dsimp only
    split
    · exact .bus rfl (operated _ a rfl rfl) (seg _ rfl rfl)
    · exact .refl calm s

/-- R198, R199: a transfer of Port 1, by what it makes of the buffer. -/
theorem Part.Runs.transfer (s : Part) (acks : List Bool) (out : List Byte) {b : Buffer}
    (hb : ∀ f, b = .submitted f → s.port1.buffer = .submitted f ∨ f.tag ≤ 65535) :
    s.Runs calm (s.transfer acks out b) := by
  refine .bus rfl (fun p f hf => ?_) fun g => ?_
  · cases p
    · exact Or.inl hf
    · exact hb f hf
  · cases g <;> rfl

end Part

end Sys2Proof.Machine
end

section
/-! SUPPORT. What each command can do, said once: INSERT and a reset apart, it is made of claims on records and stations
(`Part.Acts`) and of claims on the line, the controllers and the buses (`Part.Runs`). -/

namespace Sys2Proof.Machine

/-- R71: every outcome that waits for the Table Controller fits the record that it serves. -/
def Part.AwaitsAll (s : Part) : Prop := ∀ g, ∀ o ∈ (s.engine g).toTable, s.Awaits o

/-- R73: an outcome waits for the Station Directory. -/
def Part.Hears (s : Part) (g : Segment) : Prop := (s.engine g).toStations ≠ []

/-- What a command can do: one claim after another. What rests on an outcome rests on those that waited at its start. -/
def Part.Moves (calm : Prop) (s t : Part) : Prop :=
  Relation.ReflTransGen (fun u v : Part => u.Runs calm v ∨ u.Acts s.AwaitsAll s.Hears v) s t

section Moves
variable {calm : Prop} {s t u : Part}

theorem Part.Moves.refl (calm : Prop) (s : Part) : s.Moves calm s := Relation.ReflTransGen.refl

theorem Part.Moves.run (h : s.Moves calm t) (k : t.Runs calm u) : s.Moves calm u := Relation.ReflTransGen.tail h (Or.inl k)

theorem Part.Moves.act (h : s.Moves calm t) (k : t.Acts s.AwaitsAll s.Hears u) : s.Moves calm u :=
  Relation.ReflTransGen.tail h (Or.inr k)

theorem Part.Runs.moves (h : s.Runs calm t) : s.Moves calm t := (Part.Moves.refl calm s).run h

theorem Part.Acts.moves (h : s.Acts s.AwaitsAll s.Hears t) : s.Moves calm t := (Part.Moves.refl calm s).act h

theorem Part.Moves.answer (h : s.Moves calm t) (p : Port) (f : RequestFrame) (a : Answer) :
    s.Moves calm (t.answer p f a.status a.results) :=
  h.act ((Part.Acts.refl _ _ t).answer p f _ _)

/-- What a command keeps that every claim of it keeps. -/
theorem Part.Moves.keeps {P : Part → Prop} (h : s.Moves calm t) (hs : P s)
    (runs : ∀ u v, P u → Part.Runs calm u v → P v) (acts : ∀ u v, P u → Part.Acts s.AwaitsAll s.Hears u v → P v) : P t := by
  induction h with
  | refl => exact hs
  | tail _ k ih =>
    obtain k | k := k
    · exact runs _ _ ih k
    · exact acts _ _ ih k

/-! ### Requests on records -/

section Requests
variable {fits : Prop} {heard : Segment → Prop}

theorem Part.Acts.onOwned {p : Port} {tag : Nat} {f : Nat → Record → Part × Answer}
    (h : ∀ n r, s.record n = some r → s.Acts fits heard (f n r).1) : s.Acts fits heard (s.onOwned p tag f).1 :=
  Part.onOwned_keeps (P := s.Acts fits heard) (.refl fits heard s) fun n r hb => h n r hb.2.1

/-- R43: the identity that an AMEND sets is compared. -/
theorem Part.Acts.amendRecord {n : Nat} {r : Record} (hr : s.record n = some r) {a : AmendArgs}
    (ha : r.Sound → (a.apply r).Sound) : s.Acts fits heard (s.amendRecord n r a) := by
  have start := Part.Acts.refl fits heard s
  unfold Part.amendRecord
  dsimp only
  split
  · split
    · next served =>
      refine (start.dequeue r.segment n).put (q := r) (by simpa using hr) ⟨Record.withReasons_fixed _ _, fun _ h => ?_⟩
      exact ((ha h).halted (RecordState.active_of_served served) _).withReasons _
    · exact start.withRecord hr ⟨rfl, fun _ h => (ha h).condition _⟩
  · exact start.withRecord hr ⟨rfl, fun _ h => ha h⟩

theorem Part.Acts.ownAmend (p : Port) (f : RequestFrame) : s.Acts fits heard (s.ownAmend p f).1 := by
  refine .onOwned fun n r hr => ?_
  split
  · exact .refl fits heard s
  · split
    · exact .refl fits heard s
    · next a args =>
      split
      · exact .refl fits heard s
      · next failing =>
        obtain ⟨period, limit⟩ := amendArgs_le args
        exact .amendRecord hr fun h => AmendArgs.apply_sound (AmendArgs.fits_of_failing failing) h period limit

theorem Part.Acts.ownWrite (p : Port) (f : RequestFrame) : s.Acts fits heard (s.ownWrite p f).1 := by
  refine .onOwned fun n r hr => ?_
  split
  · exact .refl fits heard s
  · split
    · exact .refl fits heard s
    · next hl =>
      exact (Part.Acts.refl fits heard s).withRecord hr ⟨rfl, fun _ h => h.written (not_not.mp hl) _⟩

/-- R46, R47: RESUME and RESTART, by what they make of the record that returns to PENDING. -/
theorem Part.Acts.ownReturn (p : Port) (f : RequestFrame) {after : Record → Record}
    (fixed : ∀ r, (after r).fixed = r.fixed) (sound : ∀ r : Record, r.Sound → (after r).Sound) :
    s.Acts fits heard (s.ownReturn p f after).1 := by
  refine .onOwned fun n r hr => ?_
  split
  · exact .refl fits heard s
  · next halted =>
    split
    · exact .refl fits heard s
    · exact (Part.Acts.refl fits heard s).withRecord hr
        ⟨fixed _, fun _ h => sound _ (h.resumed (not_not.mp halted) s)⟩

theorem Record.restartGuard_fixed (r : Record) : r.restartGuard.fixed = r.fixed := by
  unfold Record.restartGuard
  split <;> rfl

/-- R49: an accepted RETIRE. -/
theorem Part.Acts.retireRecord {n : Nat} {r : Record} (hr : s.record n = some r) (ha : r.state.active = true) :
    s.Acts fits heard (s.retireRecord n r).1 := by
  have start := (Part.Acts.refl fits heard s).dequeue r.segment n
  have hr' : (s.dequeue r.segment n).record n = some r := by simpa using hr
  have loud : r.Sound → r.silentRetire = false := fun h => h.loud fun e => by simp [e, RecordState.active] at ha
  unfold Part.retireRecord
  dsimp only
  split
  · exact start.withRecord hr' ⟨rfl, fun _ h => h.retiring⟩
  · split
    · next owed =>
      split
      · exact start.oweCancel hr' (Record.guarded_of_cancelOwed owed)
      · exact start.putRetired hr' loud _
    · exact start.putRetired hr' loud r.condition

theorem Part.Acts.ownRetire (p : Port) (f : RequestFrame) : s.Acts fits heard (s.ownRetire p f).1 := by
  refine .onOwned fun n r hr => ?_
  split
  · next ha => exact .retireRecord hr ha
  · exact .refl fits heard s

/-- R52: a purged record with an exchange in flight. -/
theorem Part.Acts.silence (h : s.Acts fits heard t) (n : Nat) : s.Acts fits heard (t.silence n) := by
  unfold Part.silence
  split
  · exact h
  · next r hr =>
    refine Part.Acts.updatePort (Part.Acts.withRecord (q := r) (h.dequeue r.segment n) (by simpa using hr) ?_) _ ?_
    · exact ⟨rfl, fun _ h => h.silenced⟩
    · exact fun _ => rfl

theorem Part.Acts.ownPurge (p : Port) : s.Acts fits heard (s.ownPurge p).1 :=
  ((Part.Acts.refl fits heard s).foldl _ fun _ n _ h => h.silence n).foldl _ fun _ n _ h => h.release n

/-- R19: what a release does rests on the record's fixed fields alone. -/
theorem Part.release_withRecord {n : Nat} {q r : Record} (hr : s.record n = some r) (h : q.fixed = r.fixed) :
    (s.withRecord n q).release n = s.release n := by
  obtain ⟨-, owner, -, segment, station, -, -⟩ := (Record.fixed_eq_iff q r).mp h
  have vacated : (s.withRecord n q).vacated n q = s.vacated n r := by
    unfold Part.vacated
    rw [owner, segment]
    cases r.segment <;> cases r.owner <;>
      simp [Part.withRecord, Part.freeSlot, Part.dequeue, Part.updateEngine, Part.updatePort, Part.withSeg, Part.withPort,
        Part.seg, Part.port]
  rw [Part.release_eq (Part.withRecord_record s n q (Part.record_lt hr)), Part.release_eq hr, vacated, segment, station]

/-- R177, R178: TAKE_ATTENTION. -/
theorem Part.Acts.ownNotice (p : Port) : s.Acts fits heard (s.ownNotice p).1 := by
  unfold Part.ownNotice
  split
  · exact .refl fits heard s
  · next n rest _ =>
    have taken : s.Acts fits heard (s.updatePort p fun u => { u with attention := rest }) :=
      (Part.Acts.refl fits heard s).updatePort p fun _ => rfl
    dsimp only
    split
    · exact taken
    · next r hr =>
      dsimp only
      split
      · rw [Part.release_withRecord (q := { r with reasons := .empty }) (r := r) (by simpa using hr) rfl]
        exact taken.release n
      · next live =>
        exact taken.withRecord (q := r) (by simpa using hr) ⟨rfl, fun _ h => h.noticed live⟩

end Requests

/-! ### Commands -/

/-- The commands that can take a slot or clear the part: INSERT, RESET and POWER_ON. -/
def renewsTable : Instr → Bool
  | .insert _ | .reset | .powerOn => true
  | _ => false

/-- The commands that set a segment's limits, or take the Station Directory's part of a teardown. -/
def unsettles : Instr → Bool
  | .segmentConfigure _ | .stationTeardown _ => true
  | _ => false

/-- A request whose owner works on records, stations or its port. -/
theorem Part.Moves.takeRequest {p : Port} {c : RequestCode} {owner : RequestFrame → Part × Answer}
    (h : ∀ f, s.Moves calm (owner f).1) : s.Moves calm (s.takeRequest p c owner) :=
  Part.takeRequest_keeps (P := s.Moves calm) (.refl calm s) fun f _ => (h f).answer p f _

/-- A request that reads and changes nothing. -/
theorem Part.Moves.reading {p : Port} {c : RequestCode} {answer : RequestFrame → Answer} :
    s.Moves calm (s.takeRequest p c fun f => (s, answer f)) :=
  .takeRequest fun _ => .refl calm s

/-- A SEGMENT_COMMAND. -/
theorem Part.Moves.takeCommand {p : Port} {c : SegmentCommand} {run : Segment → Part × Answer}
    (h : ∀ g, s.Runs calm (run g).1) : s.Moves calm (s.takeCommand p c run) :=
  Part.takeCommand_keeps (P := s.Moves calm) (.refl calm s) (fun _ f a h => h.answer p f a) fun g => (h g).moves

theorem Part.Moves.onStation {f : RequestFrame} {run : Segment → Nat → Station → Part × Answer}
    (h : ∀ g n e, s.Moves calm (run g n e).1) : s.Moves calm (s.onStation f run).1 :=
  Part.onStation_keeps (P := s.Moves calm) (.refl calm s) fun g n e _ => h g n e

theorem Part.Moves.ownStatus (p : Port) (f : RequestFrame) : s.Moves calm (s.ownStatus p f).1 := by
  unfold Part.ownStatus
  split
  · split
    · exact .refl calm s
    · next g _ =>
      dsimp only
      refine Part.Acts.moves (.updatePort (.refl _ _ s) p fun v => ?_)
      cases g <;> rfl
  · exact .refl calm s

theorem Part.Moves.ownPortConfigure (p : Port) (f : RequestFrame) : s.Moves calm (s.ownPortConfigure p f).1 := by
  unfold Part.ownPortConfigure
  split
  · split
    · exact .refl calm s
    · exact .refl calm s
    · dsimp only
      refine Part.Acts.moves (.updatePort (.refl _ _ s) p ?_)
      exact fun _ => rfl
  · exact .refl calm s

theorem Part.Moves.ownConfigure (hc : ¬calm) (f : RequestFrame) : s.Moves calm (s.ownConfigure f).1 := by
  unfold Part.ownConfigure
  split
  · split
    · exact .refl calm s
    · split
      · exact .refl calm s
      · split
        · exact .refl calm s
        · dsimp only
          refine Part.Runs.moves (.updateControl (.refl calm s) _ ?_)
          exact fun h => absurd h hc
  · exact .refl calm s

/-! ### The cycle -/

/-- R80 to R85: the cycle step. -/
theorem Part.Moves.takeStep (g : Segment) : s.Moves calm (s.takeStep g) := by
  unfold Part.takeStep
  dsimp only
  split
  · have stepped : s.Acts s.AwaitsAll s.Hears (s.forRecords (fun _ r => r.segment == g) stepVerdict) :=
      (Part.Acts.refl _ _ s).forRecords fun n r => .of_verdict (stepVerdict_fixed n r) (stepVerdict_sound n)
    refine stepped.moves.run (.engine (.refl calm _) g (.of_eq ?_ ?_ ?_ ?_)) <;> rfl
  · exact .refl calm s

/-- R90: the exchange of the head record starts. -/
theorem Part.Moves.startHead (g : Segment) (elapsed : Nat) {n : Nat} {r : Record} (k : ExchangeKind)
    (hr : s.record n = some r) (busy : (s.control g).state.onLine = true) : s.Moves calm (s.startHead g elapsed n r k) := by
  let drawn : Part := { s with freeDraws := if r.started.drawsToken k then s.freeDraws + 1 else s.freeDraws }
  have seg : ∀ h, drawn.seg h = s.seg h := fun h => by cases h <;> rfl
  have started : s.Acts s.AwaitsAll s.Hears ((drawn.withRecord n r.started).dequeue g n) :=
    (((Part.Acts.refl _ _ s).ports (u := drawn) rfl (fun p => by cases p <;> rfl) seg).withRecord (q := r) hr
      ⟨r.started_fixed, fun _ h => h.started⟩).dequeue g n
  unfold Part.startHead
  refine started.moves.run (.busyEngine (.refl calm _) g (Engine.Flies.trans (Engine.Runs.elapse _ elapsed).toFlies ?_) ?_)
  · refine .startExchange _ _ _ (n := n) rfl ⟨r.started, ?_, rfl⟩
    rw [Part.dequeue_record, Part.withRecord_record _ _ _ (Part.record_lt (s := drawn) hr)]
  · rw [started.controls]
    exact busy

/-- R88, R91: the head of the active part is considered. -/
theorem Part.Moves.considerHead (g : Segment) (elapsed : Nat) (busy : (s.control g).state.onLine = true) :
    s.Moves calm (s.considerHead g elapsed) := by
  unfold Part.considerHead
  split
  · split
    · exact .refl calm s
    · next r hr =>
      split
      · exact .refl calm s
      · split
        · exact .startHead g elapsed _ hr busy
        · exact ((Part.Runs.refl calm s).engine g ((Engine.Runs.elapse _ elapsed).trans (.of_eq rfl rfl rfl rfl))).moves
  · exact .refl calm s

/-- R88: exchanges start while the segment is RUNNING. -/
theorem Part.busy_of_mayStart {g : Segment} (h : s.mayStart g = true) : (s.control g).state.onLine = true := by
  simp only [Part.mayStart, Bool.and_eq_true, beq_iff_eq] at h
  obtain ⟨⟨⟨⟨⟨⟨-, running⟩, -⟩, -⟩, -⟩, -⟩, -⟩ := h
  rw [running]
  rfl

/-! ### Outcomes -/

/-- R26: outcomes are taken off what waits. -/
theorem Part.Runs.take (g : Segment) {f : Engine → Engine} (cursor : ∀ e, (f e).probeCursor = e.probeCursor)
    (exchange : ∀ e, (f e).exchange = e.exchange) (toTable : ∀ o ∈ (f (s.engine g)).toTable, o ∈ (s.engine g).toTable)
    (toStations : (s.engine g).toStations = [] → (f (s.engine g)).toStations = []) :
    s.Runs calm (s.updateEngine g f) :=
  (Part.Runs.refl calm s).engine g
    { cursor := fun h => by rw [cursor]; exact h
      exchange := fun x _ hx hn => Or.inl ⟨x, exchange (s.engine g) ▸ hx, hn, rfl⟩
      outcomes := fun o ho => Or.inl ⟨o, toTable o ho, rfl, rfl⟩
      rests := fun hx => ⟨(exchange (s.engine g)).trans hx, toStations⟩ }

theorem Part.awaits_congr (h : t.slots = s.slots) {o : ExchangeOutcome} (ho : s.Awaits o) : t.Awaits o :=
  fun n r hn hr => ho n r hn ((Part.record_congr h n) ▸ hr)

/-- R102: the oldest outcome is taken by the Table Controller. -/
theorem Part.Moves.nextOutcome (g : Segment) : s.Moves calm (s.nextOutcome g) := by
  unfold Part.nextOutcome
  split
  · exact .refl calm s
  · next o rest ho =>
    have taken : s.Runs calm (s.updateEngine g fun e => { e with toTable := rest }) :=
      .take g (fun _ => rfl) (fun _ => rfl) (fun x hx => ho ▸ List.mem_cons_of_mem o hx) id
    refine taken.moves.act ((Part.Acts.refl _ _ _).takeOutcome (fun hf => ?_) false)
    exact Part.awaits_congr taken.slots (hf g o (ho ▸ List.mem_cons_self))

/-- R143 to R149: the oldest outcome is taken by the Station Directory. -/
theorem Part.Moves.nextStationOutcome (g : Segment) (probe : Bool) : s.Moves calm (s.nextStationOutcome g probe) := by
  unfold Part.nextStationOutcome
  split
  · exact .refl calm s
  · next o rest ho =>
    split
    · have taken : s.Runs calm (s.updateEngine g fun e => { e with toStations := rest }) :=
        .take g (fun _ => rfl) (fun _ => rfl) (fun _ => id) fun h => by rw [h] at ho; cases ho
      have hear : s.Hears g := fun h => by rw [h] at ho; cases ho
      exact taken.moves.act ((Part.Acts.refl _ _ _).stationTakes g hear o)
    · exact .refl calm s

/-! ### The teardown -/

/-- R169: a station's entry at the teardown. -/
theorem tornStation_turns (used : Bool) (limit : Nat) (heard : Prop) (e : Station) :
    e.Turns limit heard (tornStation used e) := by
  unfold tornStation
  split
  · next h =>
    have barred : ({ e with silence := 0 } : Station) = ⟨.barred, e.identity, 0⟩ := by rw [← h]
    rw [barred]
    exact .single (.barred e _)
  all_goals exact .single (.absent e _)

theorem Part.withStations_engine (s : Part) (g k : Segment) (l : List Station) :
    (s.withSeg g { s.seg g with stations := l }).engine k = s.engine k := by
  cases g <;> cases k <;> rfl

theorem Part.withStations_control (s : Part) (g k : Segment) (l : List Station) :
    (s.withSeg g { s.seg g with stations := l }).control k = s.control k := by
  cases g <;> cases k <;> rfl

/-- R169: the stations of the segment at the teardown. -/
theorem Part.Acts.tearStations {fits : Prop} {heard : Segment → Prop} (h : s.Acts fits heard t) (g : Segment) :
    s.Acts fits heard (t.tearStations g) := by
  have torn : t.Acts fits heard (t.withSeg g { t.seg g with
      stations := (t.seg g).stations.mapIdx fun i e => tornStation (t.refCount g (i + 1) != 0) e }) :=
    { size := by simp
      records := fun n r hr => ⟨r, by simpa using hr, .refl fits r⟩
      buffers := fun p f hf => by simpa using hf
      queues := fun k => ⟨_, _, t.withStations_engine g k _⟩
      controls := fun k => t.withStations_control g k _
      stations := fun k => by
        by_cases hk : k = g
        · subst hk
          simp
        · rw [Part.withSeg_seg_ne _ _ _ _ hk]
      entries := fun k n e he => by
        by_cases hk : k = g
        · subst hk
          unfold Part.station at he ⊢
          split at he
          · cases he
          · next hn =>
            rw [if_neg hn]
            simp only [Part.withSeg_seg, List.getElem?_mapIdx] at he
            obtain ⟨e₀, h₀, rfl⟩ := Option.map_eq_some_iff.mp he
            exact ⟨e₀, h₀, tornStation_turns ..⟩
        · refine ⟨e, ?_, .refl⟩
          unfold Part.station at he ⊢
          rwa [Part.withSeg_seg_ne _ _ _ _ hk] at he }
  unfold Part.tearStations
  dsimp only
  split
  · exact (h.trans torn).setFlags g
  · exact h.trans torn

/-- R169: the outcomes that wait for the Station Directory are taken. -/
theorem Part.Moves.stationBacklog (h : s.Moves calm t) (g : Segment) (hear : (t.engine g).toStations ≠ [] → s.Hears g) :
    s.Moves calm (t.stationBacklog g) := by
  have taken : t.Runs calm (t.updateEngine g fun e => { e with toStations := [] }) :=
    .take g (fun _ => rfl) (fun _ => rfl) (fun _ => id) fun _ => rfl
  unfold Part.stationBacklog
  dsimp only
  refine (h.run taken).act (((Part.Acts.refl _ _ _).foldl _ fun u o ho hu => ?_).inSlotOrder t)
  exact hu.stationTakes g (hear (List.ne_nil_of_mem ho)) o

/-- R168: the outcomes that the Table Controller has not taken keep their stations' standing. -/
theorem Part.Runs.holdStanding (h : s.Runs calm t) (g : Segment) : s.Runs calm (t.holdStanding g) :=
  h.engine g
    { cursor := id
      exchange := fun x _ hx hn => Or.inl ⟨x, hx, hn, rfl⟩
      outcomes := fun o ho => by
        obtain ⟨o₀, h₀, rfl⟩ := List.mem_map.mp ho
        exact Or.inl ⟨o₀, h₀, rfl, rfl⟩
      rests := fun hx => ⟨hx, id⟩ }

/-- R169: the Station Directory's part of a teardown. -/
theorem Part.Moves.stationTeardown (hc : ¬calm) (g : Segment) : s.Moves calm (s.stationTeardown g) := by
  unfold Part.stationTeardown
  split
  · exact .refl calm s
  · next k _ =>
    have handed : s.Runs calm (s.updateControl g fun c => { c with stationTeardowns := k }) :=
      (Part.Runs.refl calm s).updateControl g fun h => absurd h hc
    dsimp only
    refine ((handed.moves.stationBacklog g ?_).run ((Part.Runs.refl calm _).holdStanding g)).act
      ((Part.Acts.refl _ _ _).tearStations g)
    simp [Part.Hears]

/-- R168, R170: the Table Controller's part of a teardown. -/
theorem Part.Moves.recordTeardown (g : Segment) : s.Moves calm (s.recordTeardown g) := by
  unfold Part.recordTeardown
  split
  · exact .refl calm s
  · next abandoned rest _ =>
    have handed : s.Runs calm (s.updateControl g fun c => { c with recordTeardowns := rest }) :=
      (Part.Runs.refl calm s).control g (fun _ => rfl) (fun _ => rfl) fun _ => rfl
    have taken := handed.trans (Part.Runs.take (s := s.updateControl g fun c => { c with recordTeardowns := rest }) g
      (f := fun e => { e with toTable := [] }) (fun _ => rfl) (fun _ => rfl) nofun id)
    dsimp only
    refine taken.moves.act ((((Part.Acts.refl _ _ _).foldl _ fun u o ho hu => hu.takeOutcome (fun hf => ?_) true).tearRecords
      g abandoned).inSlotOrder _)
    rw [Part.updateControl_engine] at ho
    exact Part.awaits_congr taken.slots (hf g o ho)

/-! ### Every command -/

/-- What each command but INSERT and a reset can do. -/
theorem exec_moves {c : Instr} {s t : State} (hr : renewsTable c = false) (hc : calm → unsettles c = false)
    (h : exec c s = .next t) : s.part.Moves calm t.part := by
  have claimed : ∀ {f : Part → Part}, s.part.Moves calm (f s.part) → s.claim f = .next t → s.part.Moves calm t.part :=
    fun hf h => State.claim_keeps (P := s.part.Moves calm) (.refl calm _) hf h
  have ran : ∀ {f : Part → Part}, s.part.Runs calm (f s.part) → s.claim f = .next t → s.part.Moves calm t.part :=
    fun hf => claimed hf.moves
  have asked : ∀ {p : Port} {k : RequestCode} {owner : Part → RequestFrame → Part × Answer},
      (∀ f, s.part.Acts s.part.AwaitsAll s.part.Hears (owner s.part f).1) →
      (s.claim fun s => s.takeRequest p k (owner s)) = .next t → s.part.Moves calm t.part :=
    fun hf => claimed (.takeRequest fun f => (hf f).moves)
  have start := Part.Acts.refl s.part.AwaitsAll s.part.Hears s.part
  cases c
  case insert | reset | powerOn => cases hr
  all_goals dsimp only [exec] at h
  case lookup | scanFrom | read => exact claimed .reading h
  case amend => exact asked (fun f => .ownAmend ..) h
  case write => exact asked (fun f => .ownWrite ..) h
  case resume => exact asked (fun f => .ownReturn _ _ (fun _ => rfl) fun _ => id) h
  case restart => exact asked (fun f => .ownReturn _ _ Record.restartGuard_fixed fun _ => Record.Sound.restarted) h
  case retire => exact asked (fun f => .ownRetire ..) h
  case purge => exact asked (fun f => .ownPurge ..) h
  case takeAttention => exact asked (fun f => .ownNotice ..) h
  case stationQuery => exact claimed (.takeRequest fun f => .onStation fun _ _ _ => .refl calm s.part) h
  case stationBar => exact claimed (.takeRequest fun f => .onStation fun g n e => (start.barStation g n e).moves) h
  case stationUnbar =>
    refine claimed (.takeRequest fun f => .onStation fun g n e => ?_) h
    split
    · exact (start.unbarStation g n e).moves
    · exact .refl calm _
  case segmentConfigure p =>
    have hc : ¬calm := fun c => by cases hc c
    exact claimed (Part.takeConfigure_keeps (P := s.part.Moves calm) (.refl calm _) fun f _ _ =>
      (Part.Moves.ownConfigure hc f).answer p f _) h
  case segmentCommandOn => exact claimed (.takeCommand (.commandOn s.part)) h
  case segmentCommandOff => exact claimed (.takeCommand (.commandOff s.part)) h
  case segmentCommandHold => exact claimed (.takeCommand (.commandHold s.part)) h
  case segmentCommandRelease => exact claimed (.takeCommand (.commandRelease s.part)) h
  case segmentStatus p => exact claimed (.takeRequest (.ownStatus p)) h
  case portConfigure p => exact claimed (.takeRequest (.ownPortConfigure p)) h
  case submit => exact ran (.onPort0 _ _ _ (fun a b => b.submit a) fun _ _ _ => Buffer.submit_submitted) h
  case collect =>
    exact ran (.onPort0 _ _ _ (fun a b => b.collect a) fun _ _ _ hf => Or.inl (Buffer.collect_submitted hf)) h
  case poll => exact ran (.onPort0 _ _ _ (fun _ b => b) fun _ _ _ => Or.inl) h
  case unknownOperation => exact ran (.onPort0 _ _ _ (fun _ b => b) fun _ _ _ => Or.inl) h
  case writeTransfer =>
    refine ran ?_ h
    split
    · exact .transfer _ _ _ fun _ => Buffer.submit_submitted
    · exact .transfer _ _ _ fun _ => Or.inl
  case readTransfer =>
    refine ran ?_ h
    split
    · exact .transfer _ _ _ fun _ hf => Or.inl (Buffer.collect_submitted hf)
    · exact .transfer _ _ _ fun _ => Or.inl
  case cycleTimerExpiry g => exact ran (.expireCycle s.part g) h
  case cycleStep g => exact claimed (.takeStep g) h
  case markEnd g => exact ran (.engine (.refl calm _) g (.endMark ..)) h
  case settlingEnd g => exact ran (.endSettling s.part g) h
  case exchangeStart g elapsed =>
    refine claimed ?_ h
    split
    · next hm => exact .considerHead g elapsed (Part.busy_of_mayStart hm)
    · exact .refl calm _
  case probeStart g elapsed =>
    refine ran ?_ h
    split
    · next hm =>
      simp only [Bool.and_eq_true] at hm
      obtain ⟨⟨hm, -⟩, -⟩ := hm
      exact .considerProbe _ g elapsed (Part.busy_of_mayStart hm)
    · exact .refl calm _
  case scanProbeStart g => exact ran (.startScanProbe s.part g) h
  case requestEnd g => exact ran (.engine (.refl calm _) g (.endRequest ..)) h
  case replyWindowExpiry g => exact ran (.engine (.refl calm _) g (.expireWindow ..)) h
  case replyStart g line => exact ran (.engine (.refl calm _) g (.listen ..)) h
  case characterReceived g elapsed before line => exact ran (.engine (.refl calm _) g (.sampleCharacter ..)) h
  case characterGapExpiry g => exact ran (.engine (.refl calm _) g (.expireGap ..)) h
  case replyDeadlineExpiry g => exact ran (.engine (.refl calm _) g (.expireDeadline ..)) h
  case outcomeTaken g => exact claimed (.nextOutcome g) h
  case stationOutcome g => exact claimed (.nextStationOutcome g false) h
  case probeOutcome g => exact claimed (.nextStationOutcome g true) h
  case settleTimerExpiry g => exact ran (.expireSettle s.part g) h
  case stationTeardown g => exact claimed (.stationTeardown (fun c => by cases hc c) g) h
  case recordTeardown g => exact claimed (.recordTeardown g) h
  case supplyFault g level =>
    cases h
    exact (Part.Runs.supply s.part g level).moves
  case resetRelease adr =>
    cases h
    unfold Part.riseFromReset
    refine (Part.Runs.bus ?_ ?_ ?_).moves
    · split <;> rfl
    · intro p f hf
      refine Or.inl (hf ▸ ?_)
      cases p <;> split <;> rfl
    · intro g
      cases g <;> split <;> rfl

end Moves

end Sys2Proof.Machine
end

section
/-! SUPPORT. INSERT and reset, the two ways in which the table gains and loses all. -/

namespace Sys2Proof.Machine

/-! ### INSERT (R36 to R39) -/

/-- R18: the lowest FREE slot is a slot of the table, and holds no record. -/
theorem Part.lowestFree_some {s : Part} {n : Nat} (h : s.lowestFree = some n) :
    n < s.slots.length ∧ s.record n = none := by
  rw [Part.lowestFree, List.findIdx?_eq_some_iff_getElem] at h
  obtain ⟨hn, hfree, -⟩ := h
  exact ⟨hn, by simpa [Part.record, hn] using hfree⟩

/-- R38: a route that is not held is no output-class record's. -/
theorem Part.routeHeld_false {s : Part} {g : Segment} {station object : Nat} (h : s.routeHeld g station object = false)
    {n : Nat} {r : Record} (hr : s.record n = some r) (hk : r.kind.outputClass = true) :
    ¬(r.segment = g ∧ r.station = station ∧ r.object = object) := by
  rintro ⟨rfl, rfl, rfl⟩
  have hmem := List.mem_of_getElem? ((s.record_some_iff n r).mp hr)
  have := (List.any_eq_false.mp h) _ hmem
  simp [hk, Record.onStation] at this

/-- R36 to R38: what an INSERT that creates a record has passed. -/
structure Part.Inserts (s : Part) (f : RequestFrame) (a : InsertArgs) (kind : RecordKind) (g : Segment) (n : Nat) :
    Prop where
  tag : f.tag ≠ 0
  unbound : s.Unbound f.tag
  fields : a.Fits kind g
  route : kind.outputClass = true → s.routeHeld g a.station.toNat a.object.toNat = false
  slot : s.lowestFree = some n

/-- R36, R39: what INSERT can do to the table: nothing, or create the record in the lowest FREE slot. -/
theorem Part.ownInsert_cases (s : Part) (p : Port) (f : RequestFrame) :
    (s.ownInsert p f).1 = s ∨ ∃ a kind g n, s.Inserts f a kind g n ∧ (s.ownInsert p f).1 =
      s.withRecord n (a.record p f.tag kind g (s.stationState g a.station.toNat)) := by
  unfold Part.ownInsert
  split
  · exact Or.inl rfl
  · next tag =>
    split
    · exact Or.inl rfl
    · next unbound =>
      split
      · exact Or.inl rfl
      · next a args =>
        split
        · exact Or.inl rfl
        · next fields =>
          split
          · next kind g kindNamed segmentNamed =>
            unfold Part.insertChecked
            split
            · exact Or.inl rfl
            · next route =>
              split
              · exact Or.inl rfl
              · next n slot =>
                refine Or.inr ⟨a, kind, g, n, ⟨tag, ?_, ?_, fun hk => ?_, slot⟩, rfl⟩
                · exact Part.unbound_of_slotOfTag (by simpa using unbound)
                · exact InsertArgs.fits_of_failing fields kindNamed segmentNamed
                · simpa [hk] using route
          · exact Or.inl rfl

/-- What holds of the part, and of the part with the record that INSERT creates, holds after INSERT. -/
theorem execInsert_keeps {P : Part → Prop} {s t : State} {p : Port} (hs : P s.part)
    (answer : ∀ u v, P u → Part.Acts True (fun _ => True) u v → P v)
    (created : ∀ f a kind g n, (s.part.port p).buffer = .submitted f → s.part.Inserts f a kind g n →
      P (s.part.withRecord n (a.record p f.tag kind g (s.part.stationState g a.station.toNat))))
    (h : execInsert p s = .next t) : P t.part := by
  refine State.claim_keeps hs (Part.takeRequest_keeps (P := P) hs fun f hb => ?_) h
  refine answer (s.part.ownInsert p f).1 _ ?_ ((Part.Acts.refl _ _ _).answer ..)
  rcases s.part.ownInsert_cases p f with e | ⟨a, kind, g, n, hi, e⟩ <;> rw [e]
  · exact hs
  · exact created f a kind g n hb hi

/-! ### Reset (R27) -/

/-- R27: reset leaves no record. -/
theorem Part.reset_record (n : Nat) : Part.reset.record n = none := by
  unfold Part.record Part.reset
  rcases h : (List.replicate Config.slotCount (none : Option Record))[n]? with _ | o
  · rfl
  · rw [List.eq_of_mem_replicate (List.mem_of_getElem? h)]
    rfl

/-- R141: after reset every station has its reset entry. -/
theorem Part.reset_station {g : Segment} {n : Nat} {e : Station} (h : Part.reset.station g n = some e) : e = .reset := by
  unfold Part.station at h
  split at h
  · cases h
  · refine List.eq_of_mem_replicate (n := Config.stationCount) (List.mem_of_getElem? (i := n - 1) ?_)
    cases g <;> exact h

/-- R27, R185: in reset a port is as after reset. -/
theorem Part.heldInReset_port (s : Part) (p : Port) : s.heldInReset.port p = .reset := by
  cases p <;> rfl

/-- R27, R157: in reset a segment is as after reset, but for the level of SxFLT. -/
theorem Part.heldInReset_seg (s : Part) (g : Segment) :
    s.heldInReset.seg g = { Part.reset.seg g with
      control := { Part.reset.control g with faultIn := (s.control g).faultIn } } := by
  cases g <;> rfl

/-- A statement about the part in reset is one about the reset state with other levels of SxFLT. -/
theorem exec_reset_cases {c : Instr} {s t : State} (hc : c = .reset ∨ c = .powerOn) (h : exec c s = .next t) :
    t.part = s.part.heldInReset := by
  obtain rfl | rfl := hc <;> cases h <;> rfl

/-- What INSERT, RESET and POWER_ON keep, and every command made of claims, every command keeps. -/
theorem exec_keeps {P : Part → Prop} {c : Instr} {s t : State} (h : exec c s = .next t)
    (moved : renewsTable c = false → P t.part) (inserted : ∀ p, execInsert p s = .next t → P t.part)
    (reset : P s.part.heldInReset) : P t.part := by
  cases hc : renewsTable c
  · exact moved hc
  · cases c
    case insert p => exact inserted p h
    case reset => exact exec_reset_cases (Or.inl rfl) h ▸ reset
    case powerOn => exact exec_reset_cases (Or.inr rfl) h ▸ reset
    all_goals cases hc

end Sys2Proof.Machine
end

section
/-! SUPPORT. Tags and routes stay unique (R20, R38). -/

namespace Sys2Proof.Machine

/-- R20, R38: the keys stay unique where no record is new and no fixed field changes. -/
theorem Part.KeysUnique.of_fixed {s t : Part} (hk : s.KeysUnique)
    (h : ∀ n r, t.record n = some r → ∃ q, s.record n = some q ∧ r.fixed = q.fixed) : t.KeysUnique := by
  intro m n q r hq hr hne
  obtain ⟨q', hq', eq⟩ := h m q hq
  obtain ⟨r', hr', er⟩ := h n r hr
  obtain ⟨qtag, -, qkind, qseg, qstation, qobject, -⟩ := (Record.fixed_eq_iff _ _).mp eq
  obtain ⟨rtag, -, rkind, rseg, rstation, robject, -⟩ := (Record.fixed_eq_iff _ _).mp er
  rw [qtag, qkind, qseg, qstation, qobject, rtag, rkind, rseg, rstation, robject]
  exact hk m n q' r' hq' hr' hne

theorem Part.KeysUnique.runs {calm : Prop} {s t : Part} (hk : s.KeysUnique) (h : s.Runs calm t) : t.KeysUnique :=
  hk.of_fixed fun n r hr => ⟨r, (Part.record_congr h.slots n) ▸ hr, rfl⟩

theorem Part.KeysUnique.acts {fits : Prop} {heard : Segment → Prop} {s t : Part} (hk : s.KeysUnique)
    (h : s.Acts fits heard t) : t.KeysUnique :=
  hk.of_fixed fun n r hr => (h.records n r hr).imp fun _ hq => ⟨hq.1, hq.2.1⟩

/-- R36, R38: the keys stay unique when a record with a tag and a route of its own joins the table. -/
theorem Part.KeysUnique.withRecord {s : Part} (hk : s.KeysUnique) {n : Nat} {r : Record} (hn : n < s.slots.length)
    (tag : s.Unbound r.tag) (route : r.kind.outputClass = true → ∀ m q, s.record m = some q → q.kind.outputClass = true →
      ¬(q.segment = r.segment ∧ q.station = r.station ∧ q.object = r.object)) : (s.withRecord n r).KeysUnique := by
  intro i j x y hx hy hne
  by_cases hi : i = n
  · subst hi
    rw [Part.withRecord_record s i r hn, Option.some_inj] at hx
    rw [Part.withRecord_record_ne s i j r (Ne.symm hne)] at hy
    subst hx
    refine ⟨fun e => tag j y hy e.symm, fun hout hroute => route hout.1 j y hy hout.2 ?_⟩
    exact ⟨hroute.1.symm, hroute.2.1.symm, hroute.2.2.symm⟩
  · rw [Part.withRecord_record_ne s n i r hi] at hx
    by_cases hj : j = n
    · subst hj
      rw [Part.withRecord_record s j r hn, Option.some_inj] at hy
      subst hy
      exact ⟨tag i x hx, fun hout => route hout.2 i x hx hout.1⟩
    · rw [Part.withRecord_record_ne s n j r hj] at hy
      exact hk i j x y hx hy hne

theorem Part.keysUnique_of_empty {s : Part} (h : ∀ n, s.record n = none) : s.KeysUnique := by
  intro m n q r hq
  rw [h m] at hq
  cases hq

/-- R20, R38: every command keeps the keys unique. -/
theorem exec_keeps_keysUnique (c : Instr) (s t : State) (hk : s.part.KeysUnique) (h : exec c s = .next t) :
    t.part.KeysUnique := by
  refine exec_keeps (P := Part.KeysUnique) h (fun hc => ?_) (fun p => ?_)
    (Part.keysUnique_of_empty fun n => Part.reset_record n)
  · exact (exec_moves (calm := False) hc False.elim h).keeps hk (fun _ _ hu k => hu.runs k) fun _ _ hu k => hu.acts k
  · refine execInsert_keeps (P := Part.KeysUnique) hk (fun _ _ hu k => hu.acts k) fun f a kind g n _ hi => ?_
    exact hk.withRecord (Part.lowestFree_some hi.slot).1 hi.unbound fun hout m q => Part.routeHeld_false (hi.route hout)

end Sys2Proof.Machine
end

section
/-! SUPPORT. The tables keep their sizes, and the stations what their states say (R1, R94, R141, R142, R144). -/

namespace Sys2Proof.Machine

/-- R141, R144, R149: what a station's entry holds by its state. -/
def Station.Known (e : Station) : Prop :=
  (e.state = .present ∨ e.state = .silent → e.identity.isSome = true) ∧
    (e.state = .absent ∨ e.state = .barred → e.silence = 0)

theorem Station.Known.turn {limit : Nat} {heard : Prop} {e e' : Station} (h : e.Known) (k : e.Turn limit heard e') :
    e'.Known := by
  obtain ⟨known, unheard⟩ := h
  cases k with
  | absent i => exact ⟨by simp, fun _ => rfl⟩
  | barred i => exact ⟨by simp, fun _ => rfl⟩
  | forgotten hs => exact ⟨by simp [hs], unheard⟩
  | counted count hear hs range => exact ⟨known, by simp [hs]⟩
  | silenced hear hs reached => exact ⟨fun _ => known (Or.inl hs), by simp⟩
  | attached i hear => exact ⟨fun _ => rfl, by simp⟩

theorem Station.Known.turns {limit : Nat} {heard : Prop} {e e' : Station} (h : e.Known) (k : e.Turns limit heard e') :
    e'.Known := by
  induction k with
  | refl => exact h
  | tail _ k ih => exact ih.turn k

theorem Part.DirectoriesSound.entry {s : Part} (h : s.DirectoriesSound) {g : Segment} {n : Nat} {e : Station}
    (he : s.station g n = some e) : e.Known :=
  ⟨h.known g n e he, h.unheard g n e he⟩

/-- The entries of the stations are read from the lists of the segments. -/
theorem Part.station_congr {s t : Part} {g : Segment} (h : (t.seg g).stations = (s.seg g).stations) (n : Nat) :
    t.station g n = s.station g n := by
  simp [Part.station, h]

theorem Part.DirectoriesSound.runs {calm : Prop} {s t : Part} (hd : s.DirectoriesSound) (h : s.Runs calm t) :
    t.DirectoriesSound where
  slots := h.slots ▸ hd.slots
  stations := fun g => by rw [h.stations g]; exact hd.stations g
  cursor := fun g => (h.engines g).cursor (hd.cursor g)
  known := fun g n e he => hd.known g n e ((Part.station_congr (h.stations g) n) ▸ he)
  unheard := fun g n e he => hd.unheard g n e ((Part.station_congr (h.stations g) n) ▸ he)

theorem Part.DirectoriesSound.acts {fits : Prop} {heard : Segment → Prop} {s t : Part} (hd : s.DirectoriesSound)
    (h : s.Acts fits heard t) : t.DirectoriesSound := by
  have entry : ∀ g n e, t.station g n = some e → e.Known := fun g n e he => by
    obtain ⟨e₀, h₀, turns⟩ := h.entries g n e he
    exact (hd.entry h₀).turns turns
  exact {
    slots := h.size.trans hd.slots
    stations := fun g => (h.stations g).trans (hd.stations g)
    cursor := fun g => by
      obtain ⟨active, held, same⟩ := h.queues g
      rw [same]
      exact hd.cursor g
    known := fun g n e he => (entry g n e he).1
    unheard := fun g n e he => (entry g n e he).2 }

/-- R75, R141: the directories after reset, and in it. -/
theorem Part.directoriesSound_of_reset {s : Part} (slots : s.slots.length = 256)
    (stations : ∀ g, (s.seg g).stations = (Part.reset.seg g).stations) (cursor : ∀ g, (s.engine g).probeCursor = 1) :
    s.DirectoriesSound := by
  have entry : ∀ g n e, s.station g n = some e → e = .reset := fun g n e he =>
    Part.reset_station ((Part.station_congr (stations g) n) ▸ he)
  exact {
    slots := slots
    stations := fun g => by
      rw [stations g]
      cases g <;> exact List.length_replicate ..
    cursor := fun g => by rw [cursor g]; decide
    known := fun g n e he hs => by
      rw [entry g n e he] at hs
      simp [Station.reset] at hs
    unheard := fun g n e he _ => by rw [entry g n e he]; rfl }

/-- R1, R94, R141, R142, R144: every command keeps the directories sound. -/
theorem exec_keeps_directoriesSound (c : Instr) (s t : State) (hd : s.part.DirectoriesSound) (h : exec c s = .next t) :
    t.part.DirectoriesSound := by
  refine exec_keeps (P := Part.DirectoriesSound) h (fun hc => ?_) (fun p => ?_)
    (Part.directoriesSound_of_reset (List.length_replicate ..) (fun g => by rw [Part.heldInReset_seg]) fun g => ?_)
  · exact (exec_moves (calm := False) hc False.elim h).keeps hd (fun _ _ hu k => hu.runs k) fun _ _ hu k => hu.acts k
  · refine execInsert_keeps (P := Part.DirectoriesSound) hd (fun _ _ hu k => hu.acts k) fun f a kind g n _ hi => ?_
    exact { hd with
      slots := by simpa using hd.slots
      stations := fun g => by simpa using hd.stations g
      cursor := fun g => by simpa using hd.cursor g
      known := fun g n e he => hd.known g n e (by simpa [Part.station] using he)
      unheard := fun g n e he => hd.unheard g n e (by simpa [Part.station] using he) }
  · cases g <;> rfl

end Sys2Proof.Machine
end

section
/-! SUPPORT. No silence counter stands above the limit in force (R141, R143, R144, R160, R169). -/

namespace Sys2Proof.Machine

/-! ### A station's counter -/

/-- R141, R143, R144: a station's counter by its state; `quiet` says that its segment is quiet (`Part.Quiet`). -/
structure Station.Within (limit : Nat) (quiet : Prop) (e : Station) : Prop where
  bound : e.silence ≤ limit
  present : e.state = .present → e.silence < limit
  silent : e.state = .silent → e.silence = limit
  quiet : quiet → (e.state = .absent ∨ e.state = .barred) ∧ e.silence = 0

section Within
variable {limit : Nat} {quiet heard : Prop} {e e' : Station}

/-- An entry that is ABSENT or BARRED with counter 0 is within every limit. -/
theorem Station.Within.of_rest (state : e.state = .absent ∨ e.state = .barred) (silence : e.silence = 0) :
    e.Within limit quiet where
  bound := silence ▸ Nat.zero_le _
  present := fun h => by simp [h] at state
  silent := fun h => by simp [h] at state
  quiet := fun _ => ⟨state, silence⟩

theorem Station.Within.turn (hl : 1 ≤ limit) (hq : heard → ¬quiet) (h : e.Within limit quiet)
    (k : e.Turn limit heard e') : e'.Within limit quiet := by
  cases k with
  | absent i => exact .of_rest (Or.inl rfl) rfl
  | barred i => exact .of_rest (Or.inr rfl) rfl
  | forgotten hs => exact ⟨h.bound, h.present, h.silent, h.quiet⟩
  | counted count hear hs range =>
    have below := h.present hs
    have count_lt : count < limit := by omega
    exact ⟨count_lt.le, fun _ => count_lt, by simp [hs], fun q => absurd q (hq hear)⟩
  | silenced hear hs reached =>
    have below := h.present hs
    have at_limit : e.silence + 1 = limit := by omega
    exact ⟨at_limit.le, by simp, fun _ => at_limit, fun q => absurd q (hq hear)⟩
  | attached i hear => exact ⟨Nat.zero_le _, fun _ => hl, by simp, fun q => absurd q (hq hear)⟩

theorem Station.Within.turns (hl : 1 ≤ limit) (hq : heard → ¬quiet) (h : e.Within limit quiet)
    (k : e.Turns limit heard e') : e'.Within limit quiet := by
  induction k with
  | refl => exact h
  | tail _ k ih => exact ih.turn hl hq k

theorem Station.Within.mono {quiet' : Prop} (h : e.Within limit quiet) (hq : quiet' → quiet) : e.Within limit quiet' :=
  ⟨h.bound, h.present, h.silent, fun q => h.quiet (hq q)⟩

end Within

/-! ### The counters of the part -/

/-- The counters of the part while a command makes its claims, for the segments that are watched: where one is quiet, no
exchange is in flight, and no outcome waits for the Station Directory or is among the claims (`hears`). -/
structure Part.CountersHold (watch hears : Segment → Prop) (s : Part) : Prop where
  limit : ∀ g, 1 ≤ (s.control g).config.silenceLimit ∧ (s.control g).config.silenceLimit ≤ 15
  entries : ∀ g n e, s.station g n = some e → e.Within (s.control g).config.silenceLimit (watch g ∧ s.Quiet g)
  rest : ∀ g, watch g → s.Quiet g →
    (s.engine g).toStations = [] ∧ (s.engine g).exchange = none ∧ ¬hears g

section CountersHold
variable {watch hears : Segment → Prop} {s t : Part}

/-- R99, R157: without traffic an engine has no exchange in flight. -/
theorem Part.SegmentsCoherent.exchange_none (h : s.SegmentsCoherent) {g : Segment}
    (off : (s.control g).state.onLine = false) : (s.engine g).exchange = none :=
  ((h g).rest off).exchange

theorem Part.CountersSound.hold (h : s.CountersSound) (hc : s.SegmentsCoherent) :
    s.CountersHold (fun _ => True) s.Hears where
  limit := h.limit
  entries := fun g n e he => ⟨h.bound g n e he, h.present g n e he, h.silent g n e he,
    fun q => (h.quiet g q.2.1 q.2.2).2 n e he⟩
  rest := fun g _ q => ⟨(h.quiet g q.1 q.2).1, hc.exchange_none q.1, fun hear => hear (h.quiet g q.1 q.2).1⟩

theorem Part.CountersHold.sound (h : s.CountersHold (fun _ => True) hears) : s.CountersSound where
  limit := h.limit
  bound := fun g n e he => (h.entries g n e he).bound
  present := fun g n e he => (h.entries g n e he).present
  silent := fun g n e he => (h.entries g n e he).silent
  quiet := fun g off waits =>
    ⟨(h.rest g trivial ⟨off, waits⟩).1, fun n e he => (h.entries g n e he).quiet ⟨trivial, off, waits⟩⟩

theorem Part.CountersHold.runs (hs : s.CountersHold watch hears) (h : s.Runs True t) : t.CountersHold watch hears where
  limit := fun g => by rw [(h.calm trivial g).1]; exact hs.limit g
  entries := fun g n e he => by
    rw [(h.calm trivial g).1]
    exact (hs.entries g n e ((Part.station_congr (h.stations g) n) ▸ he)).mono
      fun q => ⟨q.1, ((h.calm trivial g).2 q.2).1⟩
  rest := fun g w q => by
    obtain ⟨q', rests⟩ := (h.calm trivial g).2 q
    obtain ⟨waiting, flight, deaf⟩ := hs.rest g w q'
    exact ⟨(rests flight).2 waiting, (rests flight).1, deaf⟩

theorem Part.CountersHold.acts {fits : Prop} (hs : s.CountersHold watch hears) (h : s.Acts fits hears t) :
    t.CountersHold watch hears := by
  have quiet : ∀ g, t.Quiet g ↔ s.Quiet g := fun g => by simp [Part.Quiet, h.controls g]
  exact {
    limit := fun g => by rw [h.controls g]; exact hs.limit g
    entries := fun g n e he => by
      obtain ⟨e₀, h₀, turns⟩ := h.entries g n e he
      rw [h.controls g]
      refine ((hs.entries g n e₀ h₀).turns (hs.limit g).1 (fun hear q => ?_) turns).mono
        fun q => ⟨q.1, (quiet g).mp q.2⟩
      exact (hs.rest g q.1 q.2).2.2 hear
    rest := fun g w q => by
      obtain ⟨active, held, same⟩ := h.queues g
      rw [same]
      exact hs.rest g w ((quiet g).mp q) }

theorem Part.CountersHold.moves (hs : s.CountersHold watch s.Hears) (h : s.Moves True t) :
    t.CountersHold watch s.Hears :=
  h.keeps hs (fun _ _ hu k => hu.runs k) fun _ _ hu k => hu.acts k

end CountersHold

/-! ### The Station Directory's part of a teardown (R169) -/

/-- R169: the outcomes that waited for the Station Directory are all taken. -/
theorem Part.stationBacklog_toStations (s : Part) (g : Segment) : ((s.stationBacklog g).engine g).toStations = [] := by
  have acts : (s.updateEngine g fun e => { e with toStations := [] }).Acts True (fun _ => True)
      ((s.engine g).toStations.foldl (fun s o => s.stationTakes g o)
        (s.updateEngine g fun e => { e with toStations := [] })) :=
    (Part.Acts.refl _ _ _).foldl _ fun _ o _ hu => hu.stationTakes g trivial o
  obtain ⟨active, held, same⟩ := acts.queues g
  unfold Part.stationBacklog
  dsimp only
  rw [show ∀ u v : Part, (u.inSlotOrder v).engine g = v.engine g from
    fun u v => congrArg SegmentUnit.engine (u.inSlotOrder_seg v g), same, Part.updateEngine_engine]

/-- R169: after it every station of the segment is ABSENT or BARRED, with counter 0. -/
theorem Part.tearStations_station {s : Part} {g : Segment} {n : Nat} {e : Station}
    (h : (s.tearStations g).station g n = some e) : (e.state = .absent ∨ e.state = .barred) ∧ e.silence = 0 := by
  obtain ⟨used, e₀, rfl⟩ : ∃ used e₀, e = tornStation used e₀ := by
    unfold Part.tearStations at h
    dsimp only at h
    unfold Part.station at h
    split at h
    · cases h
    · have seg : ∀ u : Part, ((if (s.seg g).someStationLost then u.setFlags g else u).seg g) = u.seg g := fun u => by
        split <;> simp
      rw [seg, Part.withSeg_seg, List.getElem?_mapIdx] at h
      obtain ⟨e₀, -, rfl⟩ := Option.map_eq_some_iff.mp h
      exact ⟨_, e₀, rfl⟩
  unfold tornStation
  split
  · next hs => exact ⟨Or.inr hs, rfl⟩
  all_goals exact ⟨Or.inl rfl, rfl⟩

/-- R141, R169: the Station Directory's part of a teardown keeps the counters sound. -/
theorem Part.CountersSound.stationTeardown {s : Part} (hs : s.CountersSound) (hc : s.SegmentsCoherent) (g : Segment) :
    (s.stationTeardown g).CountersSound := by
  unfold Part.stationTeardown
  split
  · exact hs
  · next k _ =>
    have hold := hs.hold hc
    let handed := s.updateControl g fun c => { c with stationTeardowns := k }
    have config : ∀ h, (handed.control h).config = (s.control h).config := fun h => by
      rw [Part.updateControl_control_eq]
      split <;> rfl
    have station : ∀ h n, handed.station h n = s.station h n := fun h n => Part.station_congr (by simp [handed]) n
    have other : ∀ h, h ≠ g → handed.seg h = s.seg h := fun h => s.updateControl_seg_ne g h _
    have quiet : ∀ h, h ≠ g → handed.Quiet h → s.Quiet h := fun h hne q => by
      unfold Part.Quiet Part.control at q ⊢
      rwa [other h hne] at q
    have handedHolds : handed.CountersHold (· ≠ g) handed.Hears :=
      { limit := fun h => by rw [config h]; exact hs.limit h
        entries := fun h n e he => by
          rw [config h]
          exact (hold.entries h n e ((station h n) ▸ he)).mono fun q => ⟨trivial, quiet h q.1 q.2⟩
        rest := fun h hne q => by
          have := hold.rest h trivial (quiet h hne q)
          unfold Part.Hears Part.engine at this ⊢
          rwa [other h hne] }
    have heldBack := ((Part.Moves.stationBacklog (.refl True handed) g id).run
      ((Part.Runs.refl True _).holdStanding g))
    have teared := (Part.Acts.refl handed.AwaitsAll handed.Hears _).tearStations (t := (handed.stationBacklog g).holdStanding g) g
    have holds := (handedHolds.moves heldBack).acts teared
    have taken : ((((handed.stationBacklog g).holdStanding g).tearStations g).engine g).toStations = [] := by
      obtain ⟨active, held, same⟩ := teared.queues g
      rw [same]
      simp [Part.holdStanding, Part.stationBacklog_toStations]
    exact {
      limit := holds.limit
      bound := fun h n e he => (holds.entries h n e he).bound
      present := fun h n e he => (holds.entries h n e he).present
      silent := fun h n e he => (holds.entries h n e he).silent
      quiet := fun h off waits => by
        by_cases hg : h = g
        · subst hg
          exact ⟨taken, fun n e he => Part.tearStations_station he⟩
        · exact ⟨(holds.rest h hg ⟨off, waits⟩).1, fun n e he => (holds.entries h n e he).quiet ⟨hg, off, waits⟩⟩ }

/-! ### SEGMENT_CONFIGURE (R160) -/

/-- R160: an accepted limit is 1 to 15. -/
theorem configArgs_limit {rate high low window settle limit : Byte} {c : SegmentConfig}
    (h : configArgs rate high low window settle limit = .ok c) : 1 ≤ c.silenceLimit ∧ c.silenceLimit ≤ 15 := by
  unfold configArgs at h
  split at h
  · cases h
  dsimp only at h
  split at h
  · cases h
  split at h
  · cases h
  split at h
  · cases h
  split at h
  · cases h
  cases h
  dsimp only
  omega

/-- R160: what SEGMENT_CONFIGURE can do: nothing, or set a segment in OFF of which no teardown waits. -/
theorem Part.ownConfigure_cases {s : Part} {f : RequestFrame} (hw : s.configureWaits f = false) :
    (s.ownConfigure f).1 = s ∨ ∃ g c, s.Quiet g ∧ (1 ≤ c.silenceLimit ∧ c.silenceLimit ≤ 15) ∧
      (s.ownConfigure f).1 = s.updateControl g fun k => { k with config := c } := by
  unfold Part.configureWaits at hw
  unfold Part.ownConfigure at hw ⊢
  split at hw
  · next segment rate high low window settle limit hargs =>
    split at hw
    · exact Or.inl (by simp [*])
    · next g hg =>
      split at hw
      · exact Or.inl (by simp [*])
      · next hoff =>
        split at hw
        · exact Or.inl (by simp [*])
        · next c hconfig =>
          refine Or.inr ⟨g, c, ⟨?_, ?_⟩, configArgs_limit hconfig, by simp [*]⟩
          · rw [not_not.mp hoff]
            rfl
          · simpa [Answer.bare, hargs, hg] using hw
  · exact Or.inl (by simp [*])

/-- R160: a new limit meets a quiet segment, whose counters are 0. -/
theorem Part.CountersSound.configure {s : Part} (hs : s.CountersSound) {g : Segment} (hq : s.Quiet g)
    {c : SegmentConfig} (hc : 1 ≤ c.silenceLimit ∧ c.silenceLimit ≤ 15) :
    (s.updateControl g fun k => { k with config := c }).CountersSound := by
  obtain ⟨-, resting⟩ := hs.quiet g hq.1 hq.2
  have station : ∀ h n, (s.updateControl g fun k => { k with config := c }).station h n = s.station h n :=
    fun h n => Part.station_congr (by simp) n
  have within : ∀ h n e, s.station h n = some e → e.Within
      ((s.updateControl g fun k => { k with config := c }).control h).config.silenceLimit False := fun h n e he => by
    rw [Part.updateControl_control_eq]
    split
    · next hg =>
      obtain ⟨state, silence⟩ := resting n e (hg ▸ he)
      exact .of_rest state silence
    · exact ⟨hs.bound h n e he, hs.present h n e he, hs.silent h n e he, False.elim⟩
  exact {
    limit := fun h => by
      rw [Part.updateControl_control_eq]
      split
      · exact hc
      · exact hs.limit h
    bound := fun h n e he => (within h n e ((station h n) ▸ he)).bound
    present := fun h n e he => (within h n e ((station h n) ▸ he)).present
    silent := fun h n e he => (within h n e ((station h n) ▸ he)).silent
    quiet := fun h off waits => by
      have quiet : s.Quiet h := by
        rw [Part.updateControl_control_eq] at off waits
        split at off
        · next hg => exact hg ▸ hq
        · next hg =>
          rw [if_neg hg] at waits
          exact ⟨off, waits⟩
      simpa only [station, Part.updateControl_engine] using hs.quiet h quiet.1 quiet.2 }

/-! ### Every command -/

/-- The counters of a part whose segments are the same. -/
theorem Part.CountersSound.of_segs {s t : Part} (hs : s.CountersSound) (h : ∀ g, t.seg g = s.seg g) : t.CountersSound := by
  have control : ∀ g, t.control g = s.control g := fun g => congrArg SegmentUnit.control (h g)
  have engine : ∀ g, t.engine g = s.engine g := fun g => congrArg SegmentUnit.engine (h g)
  have station : ∀ g n, t.station g n = s.station g n :=
    fun g n => Part.station_congr (congrArg SegmentUnit.stations (h g)) n
  exact {
    limit := fun g => by rw [control]; exact hs.limit g
    bound := fun g n e he => by rw [control]; exact hs.bound g n e ((station g n) ▸ he)
    present := fun g n e he => by rw [control]; exact hs.present g n e ((station g n) ▸ he)
    silent := fun g n e he => by rw [control]; exact hs.silent g n e ((station g n) ▸ he)
    quiet := fun g => by
      simp only [control, engine, station]
      exact hs.quiet g }

/-- R141, R159: the counters after reset, and in it. -/
theorem Part.countersSound_of_reset {s : Part} (stations : ∀ g, (s.seg g).stations = (Part.reset.seg g).stations)
    (config : ∀ g, (s.control g).config = .reset) (toStations : ∀ g, (s.engine g).toStations = []) :
    s.CountersSound := by
  have within : ∀ g n e limit, s.station g n = some e → e.Within limit True := fun g n e limit he => by
    obtain rfl := Part.reset_station ((Part.station_congr (stations g) n) ▸ he)
    exact .of_rest (Or.inl rfl) rfl
  exact {
    limit := fun g => by rw [config g]; decide
    bound := fun g n e he => (within g n e _ he).bound
    present := fun g n e he => (within g n e _ he).present
    silent := fun g n e he => (within g n e _ he).silent
    quiet := fun g _ _ => ⟨toStations g, fun n e he => (within g n e 0 he).quiet trivial⟩ }

/-- R141, R143, R144: every command keeps the counters sound. -/
theorem exec_keeps_countersSound (c : Instr) (s t : State) (hc : s.part.SegmentsCoherent) (hs : s.part.CountersSound)
    (h : exec c s = .next t) : t.part.CountersSound := by
  refine exec_keeps (P := Part.CountersSound) h (fun hr => ?_) (fun p hp => ?_)
    (Part.countersSound_of_reset (fun g => by rw [Part.heldInReset_seg]) (fun g => ?_) fun g => ?_)
  · cases hu : unsettles c
    · exact ((hs.hold hc).moves (exec_moves (calm := True) hr (fun _ => hu) h)).sound
    · cases c
      case segmentConfigure p =>
        dsimp only [exec] at h
        refine State.claim_keeps (P := Part.CountersSound) hs
          (Part.takeConfigure_keeps (P := Part.CountersSound) hs fun f _ hw => ?_) h
        refine Part.CountersSound.of_segs (s := (s.part.ownConfigure f).1) ?_ (Part.answer_seg _ p f _ _)
        obtain e | ⟨g, c, hq, hl, e⟩ := Part.ownConfigure_cases hw
        · rw [e]
          exact hs
        · rw [e]
          exact hs.configure hq hl
      case stationTeardown g =>
        dsimp only [exec] at h
        exact State.claim_keeps (P := Part.CountersSound) hs (hs.stationTeardown hc g) h
      all_goals cases hu
  · refine State.claim_keeps (P := Part.CountersSound) hs
      (Part.takeRequest_keeps (P := Part.CountersSound) hs fun f _ => ?_) hp
    refine Part.CountersSound.of_segs (s := (s.part.ownInsert p f).1) ?_ (Part.answer_seg _ p f _ _)
    obtain e | ⟨a, kind, g, n, -, e⟩ := s.part.ownInsert_cases p f
    · rw [e]
      exact hs
    · rw [e]
      exact hs.of_segs (Part.withRecord_seg _ _ _)
  · cases g <;> rfl
  · cases g <;> rfl

/-- Settles O57: each of the three is kept by every command, and so by every step. -/
theorem keysAndDirectoriesStaySound : Obligations.KeysAndDirectoriesStaySound := by
  refine ⟨fun s t hk h => ?_, fun s t hd h => ?_, fun s t hc _ hs h => ?_⟩
  · exact step_keeps (fun _ => id) exec_keeps_keysUnique hk h
  · exact step_keeps (fun _ => id) exec_keeps_directoriesSound hd h
  · exact step_keeps (P := fun u => u.SegmentsCoherent ∧ u.CountersSound) (fun _ hu => hu.2)
      (fun c u v hu => exec_keeps_countersSound c u v hu.1 hu.2) ⟨hc, hs⟩ h

end Sys2Proof.Machine
end

section
/-! SUPPORT. Every record stays sound, and what is on its way into a record fits it (R15, R61, R71, R187). -/

namespace Sys2Proof.Machine

/-! ### What is on its way into a record -/

/-- R71: in a sound part every outcome that waits fits the record that it serves. -/
theorem Part.RecordsSound.awaitsAll {s : Part} (hs : s.RecordsSound) : s.AwaitsAll :=
  fun g o ho n r hn hr bytes hk hb => hs.replies g o n r bytes ho hn hr hk hb

/-- R13: a slot whose exchange is in flight is in flight. -/
theorem Engine.inFlightKind_of_exchange {e : Engine} {x : Exchange} {n : Nat} (hx : e.exchange = some x)
    (hn : x.slot = some n) : (e.inFlightKind n).isSome = true := by
  simp [Engine.inFlightKind, hx, hn]

/-- R73: a slot whose outcome the Table Controller has not taken is in flight. -/
theorem Engine.inFlightKind_of_toTable {e : Engine} {o : ExchangeOutcome} {n : Nat} (ho : o ∈ e.toTable)
    (hn : o.exchange.slot = some n) : (e.inFlightKind n).isSome = true := by
  have waiting : (Engine.inFlightKind.outcomeKind e n).isSome = true := by
    simp only [Engine.inFlightKind.outcomeKind, Option.isSome_map, List.find?_isSome, beq_iff_eq]
    exact ⟨o, ho, hn⟩
  unfold Engine.inFlightKind
  split
  · split
    · rfl
    · exact waiting
  · exact waiting

/-! ### The claims -/

theorem Part.RecordsSound.runs {calm : Prop} {s t : Part} (hs : s.RecordsSound) (h : s.Runs calm t) :
    t.RecordsSound := by
  have record : ∀ n, t.record n = s.record n := Part.record_congr h.slots
  have sized : ∀ {g n length r}, (s.engine g).Sized s.HasLength n length → s.record n = some r → length = r.length := by
    rintro g n length r (⟨x, hx, hn, rfl⟩ | ⟨q, hq, rfl⟩) hr
    · exact hs.flight g x n r hx hn hr
    · rw [hq, Option.some_inj] at hr
      rw [hr]
  exact {
    records := fun n r hr => hs.records n r ((record n) ▸ hr)
    frames := fun p f hf => (h.buffers p f hf).elim (hs.frames p f) id
    flight := fun g x n r hx hn hr => sized ((h.engines g).exchange x n hx hn) ((record n) ▸ hr)
    replies := fun g o n r bytes ho hn hr hk hb => by
      rw [record] at hr
      obtain ⟨o₀, h₀, ex, res⟩ | ⟨m, length, hm, hl, carries⟩ := (h.engines g).outcomes o ho
      · exact hs.replies g o₀ n r bytes h₀ (ex ▸ hn) hr (ex ▸ hk) (res ▸ hb)
      · rw [hn, Option.some_inj] at hm
        subst hm
        exact (carries bytes hk hb).trans (sized hl hr) }

theorem Part.RecordsSound.acts {fits : Prop} {heard : Segment → Prop} {s t : Part} (hs : s.RecordsSound) (hf : fits)
    (h : s.Acts fits heard t) : t.RecordsSound := by
  have descends : ∀ n r, t.record n = some r → ∃ q, s.record n = some q ∧ r.length = q.length ∧ r.Sound := by
    intro n r hr
    obtain ⟨q, hq, fixed, sound⟩ := h.records n r hr
    obtain ⟨-, -, -, -, -, -, length⟩ := (Record.fixed_eq_iff r q).mp fixed
    exact ⟨q, hq, length, sound hf (hs.records n q hq)⟩
  exact {
    records := fun n r hr => by
      obtain ⟨_, _, _, sound⟩ := descends n r hr
      exact sound
    frames := fun p f hb => hs.frames p f (h.buffers p f hb)
    flight := fun g x n r hx hn hr => by
      obtain ⟨q, hq, length, -⟩ := descends n r hr
      obtain ⟨active, held, same⟩ := h.queues g
      rw [length]
      exact hs.flight g x n q (by rw [same] at hx; exact hx) hn hq
    replies := fun g o n r bytes ho hn hr hk hb => by
      obtain ⟨q, hq, length, -⟩ := descends n r hr
      obtain ⟨active, held, same⟩ := h.queues g
      rw [length]
      exact hs.replies g o n q bytes (by rw [same] at ho; exact ho) hn hq hk hb }

/-! ### INSERT and reset -/

/-- R13, R39: nothing is on its way into the slot of a new record. -/
theorem Part.RecordsSound.withRecord {s : Part} (hs : s.RecordsSound) (hq : s.QueuesSound) {n : Nat} {r : Record}
    (free : s.record n = none) (sound : r.Sound) : (s.withRecord n r).RecordsSound := by
  have notInFlight : ∀ g, ((s.engine g).inFlightKind n).isSome = true → False := fun g h => by
    obtain ⟨-, q, hrec, -, -⟩ := (hq g).flight n h
    rw [free] at hrec
    cases hrec
  have other : ∀ m q, m ≠ n → (s.withRecord n r).record m = some q → s.record m = some q :=
    fun m q hm => (s.withRecord_record_ne n m r hm) ▸ id
  exact {
    records := fun m q hr => by
      by_cases hm : m = n
      · subst hm
        by_cases hlt : m < s.slots.length
        · rw [Part.withRecord_record s m r hlt, Option.some_inj] at hr
          exact hr ▸ sound
        · exact absurd (Part.record_lt hr) (by simpa using hlt)
      · exact hs.records m q (other m q hm hr)
    frames := fun p f hf => hs.frames p f (by simpa using hf)
    flight := fun g x m q hx hn hr => by
      rw [Part.withRecord_engine] at hx
      have hm : m ≠ n := fun e => notInFlight g (Engine.inFlightKind_of_exchange hx (e ▸ hn))
      exact hs.flight g x m q hx hn (other m q hm hr)
    replies := fun g o m q bytes ho hn hr hk hb => by
      rw [Part.withRecord_engine] at ho
      have hm : m ≠ n := fun e => notInFlight g (Engine.inFlightKind_of_toTable ho (e ▸ hn))
      exact hs.replies g o m q bytes ho hn (other m q hm hr) hk hb }

/-- A part without records and without a request in its ports. -/
theorem Part.recordsSound_of_empty {s : Part} (h : ∀ n, s.record n = none) (hp : ∀ p, (s.port p).buffer = .empty) :
    s.RecordsSound where
  records := fun n r hr => by rw [h n] at hr; cases hr
  frames := fun p f hf => by rw [hp p] at hf; cases hf
  flight := fun g x n r _ _ hr => by rw [h n] at hr; cases hr
  replies := fun g o n r bytes _ _ hr => by rw [h n] at hr; cases hr

/-- Every command keeps the records sound. -/
theorem exec_keeps_recordsSound (c : Instr) (s t : State) (hq : s.part.QueuesSound) (hs : s.part.RecordsSound)
    (h : exec c s = .next t) : t.part.RecordsSound := by
  refine exec_keeps (P := Part.RecordsSound) h (fun hc => ?_) (fun p => ?_)
    (Part.recordsSound_of_empty (fun n => Part.reset_record n) fun p => by rw [Part.heldInReset_port]; rfl)
  · exact (exec_moves (calm := False) hc False.elim h).keeps hs (fun _ _ hu k => hu.runs k)
      fun _ _ hu k => hu.acts hs.awaitsAll k
  · refine execInsert_keeps (P := Part.RecordsSound) hs (fun _ _ hu k => hu.acts trivial k)
      fun f a kind g n hb hi => ?_
    have tag : 1 ≤ f.tag ∧ f.tag ≤ 65535 := ⟨Nat.pos_of_ne_zero hi.tag, hs.frames p f hb⟩
    exact hs.withRecord hq (Part.lowestFree_some hi.slot).2 (InsertArgs.record_sound hi.fields p tag _)

/-- Settles O56: every command keeps the records sound, and so does every step. -/
theorem recordsStaySound : Obligations.RecordsStaySound := by
  intro s t hq hs h
  exact step_keeps (P := fun u => u.QueuesSound ∧ u.RecordsSound) (fun _ hu => hu.2)
    (fun c u v hu => exec_keeps_recordsSound c u v hu.1 hu.2) ⟨hq, hs⟩ h

/-! ### After reset -/

/-- R27, R75: after reset nothing is queued, in flight or handed over. -/
theorem Part.reset_engine (g : Segment) : Part.reset.engine g = .reset := by
  cases g <;> rfl

/-- R157: a segment after reset goes with its state OFF. -/
theorem SegmentUnit.reset_coherent : SegmentUnit.reset.Coherent where
  power := rfl
  supply := nofun
  settle := by decide
  scan := by decide
  driver := by decide
  timer := nofun
  owed := nofun
  rest := fun _ => ⟨rfl, rfl, ⟨rfl, rfl⟩, rfl, rfl, rfl⟩

/-- R84: an empty queue is sound. -/
theorem Part.reset_queueSound (g : Segment) : Part.reset.QueueSound g where
  distinct := by rw [Part.reset_engine]; exact List.nodup_nil
  entries := fun n hn => by rw [Part.reset_engine] at hn; cases hn
  cancelsFirst := by rw [Part.reset_engine]; exact List.Pairwise.nil
  flight := fun n hn => by rw [Part.reset_engine] at hn; cases hn
  single := fun x hx => by rw [Part.reset_engine] at hx; cases hx
  waiting := by rw [Part.reset_engine]; exact Nat.zero_le 1
  onWire := fun hx => by rw [Part.reset_engine] at hx; cases hx

/-- Settles O60: nothing stands in the table, on the lists or in the queues after reset. -/
theorem resetIsSound : Obligations.ResetIsSound := by
  refine ⟨fun g => ?_, ?_, ?_, ?_, ?_, fun p => ?_, Part.reset_queueSound⟩
  · cases g <;> exact SegmentUnit.reset_coherent
  · exact Part.recordsSound_of_empty Part.reset_record fun p => by cases p <;> rfl
  · exact Part.keysUnique_of_empty Part.reset_record
  · exact Part.directoriesSound_of_reset (List.length_replicate ..) (fun _ => rfl) fun g => by
      cases g <;> rfl
  · exact Part.countersSound_of_reset (fun _ => rfl) (fun g => by cases g <;> rfl) fun g => by cases g <;> rfl
  · cases p <;> exact ⟨List.nodup_nil, nofun⟩

end Sys2Proof.Machine
end

section
/-! SUPPORT. The requests on a record: their checks 1 to 3 (section 2.2), WRITE, RESUME, RESTART and RETIRE. -/

namespace Sys2Proof.Machine

/-! ### Checks 1 to 3 -/

/-- A request that one of checks 1 to 3 refuses changes nothing. -/
theorem Part.onOwned_refused {s : Part} {p : Port} {tag : Nat} {a : Answer} (h : s.findOwned p tag = .error a)
    (f : Nat → Record → Part × Answer) : s.onOwned p tag f = (s, a) := by
  simp [Part.onOwned, h]

/-- A request on a bound tag that the port may change runs on its record. -/
theorem Part.onOwned_allows {s : Part} {p : Port} {tag n : Nat} {r : Record} (hk : s.KeysUnique) (h : s.Binds tag n r)
    (ha : r.Allows p) (f : Nat → Record → Part × Answer) : s.onOwned p tag f = f n r := by
  simp [Part.onOwned, Part.findOwned_allows hk h ha]

/-- A claim that takes a standing request, by what its owner makes of the part and answers. -/
theorem State.claim_answered (s : State) (p : Port) (c : RequestCode) (f : RequestFrame)
    (owner : Part → RequestFrame → Part × Answer) (h : s.part.Standing p c f) {t : Part} {status : Status}
    {results : List Byte} (ho : owner s.part f = (t, ⟨status, results⟩)) :
    (s.claim fun s => s.takeRequest p c (owner s)) = .next (s.with (t.answer p f status results)) := by
  rw [s.claim_request p c f owner h, ho]

section Taken
variable {p : Port} {s : State} {f : RequestFrame} {t : Part} {status : Status} {results : List Byte}

theorem exec_insert (h : s.part.Standing p .insert f) (ho : s.part.ownInsert p f = (t, ⟨status, results⟩)) :
    exec (.insert p) s = .next (s.with (t.answer p f status results)) :=
  s.claim_answered p _ f (fun s => s.ownInsert p) h ho

theorem exec_amend (h : s.part.Standing p .amend f) (ho : s.part.ownAmend p f = (t, ⟨status, results⟩)) :
    exec (.amend p) s = .next (s.with (t.answer p f status results)) :=
  s.claim_answered p _ f (fun s => s.ownAmend p) h ho

theorem exec_write (h : s.part.Standing p .write f) (ho : s.part.ownWrite p f = (t, ⟨status, results⟩)) :
    exec (.write p) s = .next (s.with (t.answer p f status results)) :=
  s.claim_answered p _ f (fun s => s.ownWrite p) h ho

theorem exec_resume (h : s.part.Standing p .resume f) (ho : s.part.ownReturn p f id = (t, ⟨status, results⟩)) :
    exec (.resume p) s = .next (s.with (t.answer p f status results)) :=
  s.claim_answered p _ f (fun s f => s.ownReturn p f id) h ho

theorem exec_restart (h : s.part.Standing p .restart f)
    (ho : s.part.ownReturn p f Record.restartGuard = (t, ⟨status, results⟩)) :
    exec (.restart p) s = .next (s.with (t.answer p f status results)) :=
  s.claim_answered p _ f (fun s f => s.ownReturn p f Record.restartGuard) h ho

theorem exec_retire (h : s.part.Standing p .retire f) (ho : s.part.ownRetire p f = (t, ⟨status, results⟩)) :
    exec (.retire p) s = .next (s.with (t.answer p f status results)) :=
  s.claim_answered p _ f (fun s => s.ownRetire p) h ho

theorem exec_purge (h : s.part.Standing p .purge f) (ho : s.part.ownPurge p = (t, ⟨status, results⟩)) :
    exec (.purge p) s = .next (s.with (t.answer p f status results)) :=
  s.claim_answered p _ f (fun s _ => s.ownPurge p) h ho

end Taken

/-- What each of the five requests on a record answers where checks 1 to 3 refuse it. -/
theorem exec_recordRequest_refused {p : Port} {s : State} {f : RequestFrame} {c : Instr} {k : RequestCode}
    (hc : (c, k) ∈ [(Instr.amend p, RequestCode.amend), (.write p, .write), (.resume p, .resume),
      (.restart p, .restart), (.retire p, .retire)])
    (hs : s.part.Standing p k f) {status : Status} (h : s.part.findOwned p f.tag = .error (.bare status)) :
    exec c s = .next (s.with (s.part.answer p f status [])) := by
  simp only [List.mem_cons, Prod.mk.injEq, List.not_mem_nil, or_false] at hc
  obtain ⟨rfl, rfl⟩ | ⟨rfl, rfl⟩ | ⟨rfl, rfl⟩ | ⟨rfl, rfl⟩ | ⟨rfl, rfl⟩ := hc
  · exact exec_amend hs (Part.onOwned_refused h _)
  · exact exec_write hs (Part.onOwned_refused h _)
  · exact exec_resume hs (Part.onOwned_refused h _)
  · exact exec_restart hs (Part.onOwned_refused h _)
  · exact exec_retire hs (Part.onOwned_refused h _)

/-- Settles O12: the five requests begin with the same three checks. -/
theorem recordRequestsChecked : Obligations.RecordRequestsChecked := by
  intro p s f c k hc hs
  refine ⟨fun h0 => ?_, fun h0 hu => ?_, fun n r hk hb ho hshared => ?_⟩
  · exact exec_recordRequest_refused hc hs (h0 ▸ s.part.findOwned_zero p)
  · exact exec_recordRequest_refused hc hs (Part.findOwned_unbound p h0 hu)
  · exact exec_recordRequest_refused hc hs (Part.findOwned_refuses hk hb ho hshared)

/-! ### The identity that a record expects (R43, R46) -/

theorem Part.stationState_of_station {s : Part} {g : Segment} {n : Nat} {e : Station} (h : s.station g n = some e) :
    s.stationState g n = e.state := by
  simp [Part.stationState, h]

theorem Part.present_iff (s : Part) (g : Segment) (n : Nat) : s.present g n = true ↔ s.stationState g n = .present := by
  simp [Part.present]

/-- R43, R46, R148: an expected identity differs where the station is PRESENT with another one. -/
theorem Part.identityDiffers_iff (s : Part) (r : Record) : s.identityDiffers r = true ↔
    ∃ i j, r.expected = some i ∧ s.station r.segment r.station = some j ∧ j.state = .present ∧ j.identity ≠ some i := by
  unfold Part.identityDiffers Part.present Part.stationState Part.presentIdentity
  rcases r.expected with _ | i
  · simp
  · rcases s.station r.segment r.station with _ | j
    · simp
    · by_cases hj : j.state = .present <;> simp [hj]

/-- It does not differ where the PRESENT station, if it is one, has the identity expected. -/
theorem Part.identityDiffers_false {s : Part} {r : Record}
    (h : ∀ i j, r.expected = some i → s.station r.segment r.station = some j → j.state = .present →
      j.identity = some i) : s.identityDiffers r = false := by
  refine Bool.eq_false_iff.mpr fun differs => ?_
  obtain ⟨i, j, hi, hj, present, other⟩ := (s.identityDiffers_iff r).mp differs
  exact other (h i j hi hj present)

/-! ### What each request makes of a record that it may change -/

section Allowed
variable {s : Part} {p : Port} {f : RequestFrame} {n : Nat} {r : Record}

theorem Part.ownAmend_inactive (hk : s.KeysUnique) (hb : s.Binds f.tag n r) (ha : r.Allows p)
    (inactive : r.state.active = false) : s.ownAmend p f = (s, .bare .wrongState) := by
  simp [Part.ownAmend, Part.onOwned_allows hk hb ha, inactive]

theorem Part.ownWrite_wrongState (hk : s.KeysUnique) (hb : s.Binds f.tag n r) (ha : r.Allows p)
    (h : r.kind.outputClass = false ∨ r.state.active = false) : s.ownWrite p f = (s, .bare .wrongState) := by
  rcases h with h | h <;> simp [Part.ownWrite, Part.onOwned_allows hk hb ha, h]

theorem Part.ownRetire_inactive (hk : s.KeysUnique) (hb : s.Binds f.tag n r) (ha : r.Allows p)
    (inactive : r.state.active = false) : s.ownRetire p f = (s, .bare .wrongState) := by
  simp [Part.ownRetire, Part.onOwned_allows hk hb ha, inactive]

theorem Part.ownReturn_wrongState (hk : s.KeysUnique) (hb : s.Binds f.tag n r) (ha : r.Allows p)
    (h : r.state ≠ .halted ∨ s.identityDiffers r = true) (after : Record → Record) :
    s.ownReturn p f after = (s, .bare .wrongState) := by
  rcases h with h | h <;> simp [Part.ownReturn, Part.onOwned_allows hk hb ha, h]

theorem Part.ownReturn_accepted (hk : s.KeysUnique) (hb : s.Binds f.tag n r) (ha : r.Allows p)
    (halted : r.state = .halted) (same : s.identityDiffers r = false) (after : Record → Record) :
    s.ownReturn p f after = (s.withRecord n (after (s.resumed r)), .bare .done) := by
  simp [Part.ownReturn, Part.onOwned_allows hk hb ha, halted, same]

theorem Part.ownWrite_badLength (hk : s.KeysUnique) (hb : s.Binds f.tag n r) (ha : r.Allows p)
    (output : r.kind.outputClass = true) (active : r.state.active = true) (length : f.args.length ≠ r.length) :
    s.ownWrite p f = (s, .badField 0) := by
  simp [Part.ownWrite, Part.onOwned_allows hk hb ha, output, active, length]

theorem Part.ownWrite_accepted (hk : s.KeysUnique) (hb : s.Binds f.tag n r) (ha : r.Allows p)
    (output : r.kind.outputClass = true) (active : r.state.active = true) (length : f.args.length = r.length) :
    s.ownWrite p f = (s.withRecord n
      { r with value := some f.args, dirty := true, rewritten := r.rewritten || s.storing n r }, .bare .done) := by
  simp [Part.ownWrite, Part.onOwned_allows hk hb ha, output, active, length]

theorem Part.ownRetire_active (hk : s.KeysUnique) (hb : s.Binds f.tag n r) (ha : r.Allows p)
    (active : r.state.active = true) : s.ownRetire p f = s.retireRecord n r := by
  simp [Part.ownRetire, Part.onOwned_allows hk hb ha, active]

end Allowed

/-- R28: a RETIRING or RETIRED record is not active. -/
theorem RecordState.active_eq_false_iff (state : RecordState) :
    state.active = false ↔ state = .retiring ∨ state = .retired := by
  cases state <;> simp [RecordState.active]

theorem RecordState.active_iff (state : RecordState) :
    state.active = true ↔ state ≠ .retiring ∧ state ≠ .retired := by
  cases state <;> simp [RecordState.active]

/-- R1: the records of the output class are those that are not INPUT. -/
theorem RecordKind.outputClass_iff (kind : RecordKind) : kind.outputClass = true ↔ kind ≠ .input := by
  cases kind <;> simp [RecordKind.outputClass]

/-- Settles O13: by the state, the kind and the identity that each request checks. -/
theorem recordRequestsWrongState : Obligations.RecordRequestsWrongState := by
  intro p s f n r hk hb ha
  refine ⟨fun left => ?_, fun input standing => ?_, fun bad => ?_⟩
  · have inactive := r.state.active_eq_false_iff.mpr left
    exact ⟨fun h => exec_amend h (Part.ownAmend_inactive hk hb ha inactive),
      fun h => exec_write h (Part.ownWrite_wrongState hk hb ha (Or.inr inactive)),
      fun h => exec_retire h (Part.ownRetire_inactive hk hb ha inactive)⟩
  · exact exec_write standing (Part.ownWrite_wrongState hk hb ha (Or.inl (by rw [input]; rfl)))
  · have refused := Part.ownReturn_wrongState hk hb ha (bad.imp id (s.part.identityDiffers_iff r).mpr)
    exact ⟨fun h => exec_resume h (refused id), fun h => exec_restart h (refused Record.restartGuard)⟩

/-! ### WRITE (R44, R131) -/

/-- R44: a STORE or a STAGE of the record is in flight. -/
theorem Part.storing_eq (s : Part) (n : Nat) (r : Record) : s.storing n r =
    ((s.engine r.segment).inFlightKind n == some .store || (s.engine r.segment).inFlightKind n == some .stage) := by
  unfold Part.storing
  rcases (s.engine r.segment).inFlightKind n with _ | k
  · rfl
  · cases k <;> rfl

/-- Settles O17: by the length of the value. -/
theorem writeAccepted : Obligations.WriteAccepted := by
  intro p s f n r standing hk hb ha notInput notRetiring notRetired
  have output := r.kind.outputClass_iff.mpr notInput
  have active := r.state.active_iff.mpr ⟨notRetiring, notRetired⟩
  refine ⟨fun length => ?_, fun length => ?_⟩
  · exact exec_write standing (Part.ownWrite_badLength hk hb ha output active length)
  · have written := Part.ownWrite_accepted hk hb ha output active length
    rw [Part.storing_eq, ← Bool.or_assoc] at written
    exact exec_write standing written

/-! ### RESUME and RESTART (R46, R47, R132, R133) -/

/-- R46: the condition of a record that returns to PENDING, by the state of its station. -/
theorem conditionFor_eq (st : StationState) : conditionFor st =
    match st with
    | .present => .noneYet
    | .absent => .stationAbsent
    | .silent => .stationSilent
    | .barred => .stationBarred := by
  cases st <;> rfl

/-- Settles O18: both return the record, and RESTART then acts on its guard phase. -/
theorem resumeAndRestartAccepted : Obligations.ResumeAndRestartAccepted := by
  intro p s f n r hk hb ha halted same back
  have resumed : s.part.resumed r = back :=
    congrArg (fun c => { back with condition := c }) (conditionFor_eq (s.part.stationState r.segment r.station))
  have returned := Part.ownReturn_accepted (f := f) hk hb ha halted (Part.identityDiffers_false same)
  rw [resumed] at returned
  refine ⟨fun h => exec_resume h (returned id), fun h => exec_restart h ((returned _).trans ?_)⟩
  have phase : back.guardPhase = r.guardPhase := rfl
  cases hp : r.guardPhase <;> simp [Record.restartGuard, phase, hp, Answer.bare]

/-! ### RETIRE (R49, R50, R136) -/

/-- R50: with nothing in flight, a CANCEL is owed in the phases VERIFY, COMMIT and CANCEL of a guarded write. -/
theorem Record.cancelOwed_none_iff (r : Record) : r.cancelOwed none = true ↔
    r.kind = .guarded ∧ (r.guardPhase = .verify ∨ r.guardPhase = .commit ∨ r.guardPhase = .cancel) := by
  unfold Record.cancelOwed
  cases r.guardPhase <;> simp

theorem SegmentState.queues_iff (st : SegmentState) : st.queues = true ↔ st = .running ∨ st = .held := by
  cases st <;> simp [SegmentState.queues]

theorem Part.cancelPlaceable_iff (s : Part) (r : Record) : s.cancelPlaceable r = true ↔
    s.stationState r.segment r.station = .present ∧
      ((s.control r.segment).state = .running ∨ (s.control r.segment).state = .held) := by
  rw [Part.cancelPlaceable, Bool.and_eq_true, Part.present_iff, SegmentState.queues_iff]

/-- Settles O19: by the exchange in flight, the cancel owed, and whether it can be placed. -/
theorem retireAccepted : Obligations.RetireAccepted := by
  intro p s f n r standing hk hb ha active u owed placeable
  have retires {t : Part} {status : Status} (h : s.part.retireRecord n r = (t, .bare status)) :
      exec (.retire p) s = .next (s.with (t.answer p f status [])) :=
    exec_retire standing ((Part.ownRetire_active hk hb ha active).trans h)
  have howed : owed ↔ r.cancelOwed none = true := r.cancelOwed_none_iff.symm
  have hplace : placeable ↔ s.part.cancelPlaceable r = true := (s.part.cancelPlaceable_iff r).symm
  rw [howed, hplace]
  refine ⟨fun flight => retires ?_, fun flight owes place => retires ?_, fun flight owes place => retires ?_,
    fun flight owes => retires ?_⟩
  · simp [Part.retireRecord, flight, u]
  · simp [Part.retireRecord, flight, owes, place, Part.oweCancel, u]
  · simp [Part.retireRecord, flight, owes, place, u]
  · simp [Part.retireRecord, flight, owes, u]

end Sys2Proof.Machine
end

section
/-! SUPPORT. AMEND (R40 to R43). -/

namespace Sys2Proof.Machine

/-! ### The numbers that name a choice (R200) -/

theorem yesNoOf_eq_none_iff (b : Byte) : yesNoOf b = none ↔ b ≠ 0 ∧ b ≠ 1 := by
  unfold yesNoOf
  split <;> simp_all

theorem noticeOf_eq_none_iff (b : Byte) : noticeOf b = none ↔ b ≠ 0 ∧ b ≠ 1 := by
  unfold noticeOf
  split <;> simp_all

theorem yesNoOf_of_named {b : Byte} (h : yesNoOf b ≠ none) : yesNoOf b = some (b == 1) := by
  unfold yesNoOf at h ⊢
  split <;> simp_all

theorem noticeOf_of_named {b : Byte} (h : noticeOf b ≠ none) :
    noticeOf b = some (if b = 0 then .state else .stateValue) := by
  unfold noticeOf at h ⊢
  split <;> simp_all

/-- R3: the phase is out of range. -/
theorem phaseBad_iff (period phase : Nat) :
    phaseBad period phase = true ↔ (period ≠ 0 ∧ period ≤ phase) ∨ (period = 0 ∧ phase ≠ 0) := by
  by_cases h : period = 0 <;> simp [phaseBad, h]

/-- R3: the period does not suit the kind. -/
theorem periodBad_iff (kind : RecordKind) (period : Nat) :
    periodBad kind period = true ↔ (kind = .input ∧ period = 0) ∨ (kind = .guarded ∧ period ≠ 0) := by
  cases kind <;> simp [periodBad]

/-! ### The resulting fields (R40) -/

theorem AmendArgs.newPhase_eq (a : AmendArgs) (r : Record) :
    a.newPhase r = a.phase.getD (if a.newPeriod r = 0 then 0 else r.phase) := by
  unfold AmendArgs.newPhase
  rcases a.phase with _ | x <;> rfl

theorem AmendArgs.newLimit_eq (a : AmendArgs) (r : Record) : a.newLimit r =
    if r.kind = .input ∨ (r.kind = .output ∧ a.newPeriod r ≠ 0) then
      (if a.freshnessLimit.isSome then a.freshnessLimit else r.freshnessLimit)
    else none := by
  unfold AmendArgs.newLimit
  simp only [freshnessApplies_iff]
  rcases a.freshnessLimit with _ | x <;> rfl

/-- R40: the resulting freshness limit is missing or 0, where freshness applies. -/
theorem AmendArgs.limitBad_iff (a : AmendArgs) (r : Record) :
    (freshnessApplies r.kind (a.newPeriod r) && (a.newLimit r).getD 0 == 0) = true ↔
      (r.kind = .input ∨ (r.kind = .output ∧ a.newPeriod r ≠ 0)) ∧
        ((if a.freshnessLimit.isSome then a.freshnessLimit else r.freshnessLimit) = none ∨
          (if a.freshnessLimit.isSome then a.freshnessLimit else r.freshnessLimit) = some 0) := by
  rw [Bool.and_eq_true, freshnessApplies_iff, AmendArgs.newLimit_eq]
  refine and_congr_right fun applies => ?_
  rw [if_pos applies]
  rcases (if a.freshnessLimit.isSome then a.freshnessLimit else r.freshnessLimit) with _ | x <;> simp

/-- R40: the checks of AMEND, in order, in the terms of the spec's table. -/
theorem AmendArgs.failing_eq (a : AmendArgs) (r : Record) :
    let period := a.period.getD r.period
    let phase := a.phase.getD (if period = 0 then 0 else r.phase)
    let limit := if a.freshnessLimit.isSome then a.freshnessLimit else r.freshnessLimit
    a.failing r =
      if (r.kind = .input ∧ period = 0) ∨ (r.kind = .guarded ∧ period ≠ 0) then some 1
      else if (period ≠ 0 ∧ period ≤ phase) ∨ (period = 0 ∧ phase ≠ 0) then some 2
      else if (r.kind = .input ∨ (r.kind = .output ∧ period ≠ 0)) ∧ (limit = none ∨ limit = some 0) then some 3
      else if ∃ b, a.retryBudget = some b ∧ 7 < b then some 4
      else if ∃ b, a.noticeMode = some b ∧ b ≠ 0 ∧ b ≠ 1 then some 5
      else if ∃ b, a.shared = some b ∧ b ≠ 0 ∧ b ≠ 1 then some 6
      else none := by
  intro period phase limit
  have hperiod : a.newPeriod r = period := rfl
  have hphase : a.newPhase r = phase := a.newPhase_eq r
  unfold AmendArgs.failing
  simp only [hphase, AmendArgs.limitBad_iff]
  simp only [hperiod, periodBad_iff, phaseBad_iff, Option.any_eq_true, beq_iff_eq, noticeOf_eq_none_iff,
    yesNoOf_eq_none_iff, decide_eq_true_eq]
  rfl

/-- Settles O15: the checks are those of the model, one by one. -/
theorem amendNamesFirstBadField : Obligations.AmendNamesFirstBadField := by
  intro p s f n r a offset standing hk hb ha active args period phase limit names
  have failing : a.failing r = some offset := (a.failing_eq r).trans names
  refine exec_amend standing ?_
  rw [Part.ownAmend, Part.onOwned_allows hk hb ha]
  simp [active, args, failing, Answer.badField]

/-! ### An accepted AMEND (R41 to R43) -/

/-- An AMEND that passes its checks becomes what R43 makes of the record. -/
theorem Part.ownAmend_accepted {s : Part} {p : Port} {f : RequestFrame} {n : Nat} {r : Record} {a : AmendArgs}
    (hk : s.KeysUnique) (hb : s.Binds f.tag n r) (ha : r.Allows p) (active : r.state.active = true)
    (args : amendArgs f.args = some a) (fields : a.failing r = none) :
    s.ownAmend p f = (s.amendRecord n r a, .bare .done) := by
  rw [Part.ownAmend, Part.onOwned_allows hk hb ha]
  simp [active, args, fields]

/-- R40: the notice mode and the sharing that an AMEND names are named by their numbers. -/
theorem AmendArgs.named_of_failing {a : AmendArgs} {r : Record} (h : a.failing r = none) :
    (∀ b, a.noticeMode = some b → noticeOf b ≠ none) ∧ ∀ b, a.shared = some b → yesNoOf b ≠ none := by
  unfold AmendArgs.failing at h
  simp only [ite_some_eq_none] at h
  obtain ⟨-, -, -, -, notice, shared, -⟩ := h
  exact ⟨fun b hb => by simpa [hb] using notice, fun b hb => by simpa [hb] using shared⟩

/-- R40 to R43: the record with the changes of an AMEND, in the terms of the spec's table. -/
theorem AmendArgs.apply_eq {a : AmendArgs} {r : Record} (h : a.failing r = none) :
    let period := a.period.getD r.period
    let phase := a.phase.getD (if period = 0 then 0 else r.phase)
    let budget := (a.retryBudget.map fun b => if b = 0 then 3 else b).getD r.retryBudget
    a.apply r = { r with
      period := period
      phase := phase
      countdown :=
        if a.period.isSome ∨ a.phase.isSome then (if period = 0 then none else some phase) else r.countdown
      freshnessLimit :=
        if r.kind = .input ∨ (r.kind = .output ∧ period ≠ 0) then
          (if a.freshnessLimit.isSome then a.freshnessLimit else r.freshnessLimit)
        else none
      retryBudget := budget
      errorCount := if a.retryBudget.isSome ∧ budget ≤ r.errorCount then budget - 1 else r.errorCount
      noticeMode := (a.noticeMode.map fun b => if b = 0 then NoticeMode.state else .stateValue).getD r.noticeMode
      shared := (a.shared.map (· == 1)).getD r.shared
      expected := a.expected.getD r.expected } := by
  intro period phase budget
  obtain ⟨namedNotice, namedShared⟩ := AmendArgs.named_of_failing h
  have hperiod : a.newPeriod r = period := rfl
  have hphase : a.newPhase r = phase := a.newPhase_eq r
  have hbudget : (a.retryBudget.map budgetOf).getD r.retryBudget = budget := rfl
  have notice : a.noticeMode.bind noticeOf = a.noticeMode.map fun b => if b = 0 then .state else .stateValue := by
    rcases hn : a.noticeMode with _ | b
    · rfl
    · exact noticeOf_of_named (namedNotice b hn)
  have shared : a.shared.bind yesNoOf = a.shared.map (· == 1) := by
    rcases hs : a.shared with _ | b
    · rfl
    · exact yesNoOf_of_named (namedShared b hs)
  simp only [AmendArgs.apply, hphase, notice, shared, AmendArgs.newLimit_eq, hbudget, hperiod, Bool.or_eq_true,
    Bool.and_eq_true, decide_eq_true_eq]

/-- R43: the record of an AMEND that sets no identity differing from the PRESENT station's takes its changes alone. -/
theorem Part.amendRecord_same {s : Part} {n : Nat} {r : Record} {a : AmendArgs}
    (same : ∀ i j, a.expected = some (some i) → s.station r.segment r.station = some j → j.state = .present →
      j.identity = some i) : s.amendRecord n r a = s.withRecord n (a.apply r) := by
  have keeps : ¬((a.expected.bind id).isSome && s.identityDiffers (a.apply r)) = true := by
    rw [Bool.and_eq_true, Part.identityDiffers_iff, Option.isSome_iff_exists]
    rintro ⟨⟨i, hi⟩, i', j, hi', hj, present, other⟩
    have set : a.expected = some (some i) := by simpa [Option.bind_eq_some_iff] using hi
    have : i = i' := by simpa [AmendArgs.apply, set] using hi'
    exact other (this ▸ same i j set hj present)
  simp only [Part.amendRecord, if_neg keeps]

/-- R43: an AMEND that sets an identity differing from the PRESENT station's halts a served record. -/
theorem Part.amendRecord_differs {s : Part} {n : Nat} {r : Record} {a : AmendArgs} {i : Identity} {j : Station}
    (set : a.expected = some (some i)) (station : s.station r.segment r.station = some j) (present : j.state = .present)
    (other : j.identity ≠ some i) : s.amendRecord n r a =
      if r.state.served then
        (s.dequeue r.segment n).put n { a.apply r with state := .halted, condition := .identityMismatch } [.halted]
      else s.withRecord n { a.apply r with condition := .identityMismatch } := by
  have differs : s.identityDiffers (a.apply r) = true :=
    (s.identityDiffers_iff _).mpr ⟨i, j, by simp [AmendArgs.apply, set], station, present, other⟩
  simp only [Part.amendRecord, set, Option.bind_some, id_eq, Option.isSome_some, differs, Bool.and_self, if_true]

/-- Settles O14: the record takes the changes, and its identity is the station's. -/
theorem amendAccepted : Obligations.AmendAccepted := by
  intro p s f n r a standing hk hb ha active args fields same period phase budget
  refine exec_amend standing ((Part.ownAmend_accepted hk hb ha active args fields).trans ?_)
  rw [Part.amendRecord_same same, AmendArgs.apply_eq fields]
  rfl

/-- Settles O16: by whether the record is served. -/
theorem amendComparesIdentity : Obligations.AmendComparesIdentity := by
  intro p s f n r a i j standing hk hb ha args fields set station present other
  have amends := fun active : r.state.active = true =>
    (Part.ownAmend_accepted hk hb ha active args fields).trans
      (congrArg (·, Answer.bare .done) (Part.amendRecord_differs (n := n) set station present other))
  refine ⟨fun served => exec_amend standing ?_, fun halted => exec_amend standing ?_⟩
  · rw [amends (RecordState.active_of_served served), if_pos served]
    rfl
  · have unserved : ¬r.state.served = true := by rw [halted]; decide
    rw [amends (by rw [halted]; rfl), if_neg unserved]
    rfl

end Sys2Proof.Machine
end

section
/-! SUPPORT. INSERT (R36 to R39): its checks in order, and the record that it creates. -/

namespace Sys2Proof.Machine

/-! ### The fields (R37) -/

/-- R200, R201: the kind that a byte names is the one whose code it is. -/
theorem kindOf_eq_some_iff (b : Byte) (kind : RecordKind) : kindOf b = some kind ↔ b = kind.code := by
  unfold kindOf
  split <;> cases kind <;> simp_all [RecordKind.code]

theorem kindOf_eq_none_iff (b : Byte) : kindOf b = none ↔ b ≠ 1 ∧ b ≠ 2 ∧ b ≠ 3 := by
  unfold kindOf
  split <;> simp_all

theorem segmentOf_eq_none_iff (b : Byte) : segmentOf b = none ↔ b ≠ 0 ∧ b ≠ 1 := by
  unfold segmentOf
  split <;> simp_all

theorem byte_toNat_eq_zero_iff (b : Byte) : b.toNat = 0 ↔ b = 0 := by
  simp [BitVec.toNat_eq]

/-- R37: the checks of INSERT, in order, in the terms of the spec's table. -/
theorem InsertArgs.failing_eq (a : InsertArgs) : a.failing =
    if a.kind ≠ 1 ∧ a.kind ≠ 2 ∧ a.kind ≠ 3 then some 0
    else if a.segment ≠ 0 ∧ a.segment ≠ 1 then some 1
    else if a.station = 0 ∨ 30 < a.station.toNat then some 2
    else if a.length = 0 ∨ 32 < a.length.toNat then some 4
    else if (a.kind = 1 ∧ a.period = 0) ∨ (a.kind = 3 ∧ a.period ≠ 0) then some 5
    else if (a.period ≠ 0 ∧ a.period.toNat ≤ a.phase.toNat) ∨ (a.period = 0 ∧ a.phase ≠ 0) then some 6
    else if (a.kind = 1 ∨ (a.kind = 2 ∧ a.period ≠ 0)) ∧ a.freshnessLimit = 0 then some 7
    else if 7 < a.retryBudget.toNat then some 8
    else if a.noticeMode ≠ 0 ∧ a.noticeMode ≠ 1 then some 9
    else if a.shared ≠ 0 ∧ a.shared ≠ 1 then some 10
    else if (a.kind ≠ 1 ∧ a.value.length ≠ a.length.toNat) ∨ (a.kind = 1 ∧ a.value ≠ []) then some 17
    else none := by
  unfold InsertArgs.failing
  rcases hk : kindOf a.kind with _ | kind
  · rw [if_pos ((kindOf_eq_none_iff _).mp hk)]
  · simp only [segmentOf_eq_none_iff, byte_toNat_eq_zero_iff, periodBad_iff, phaseBad_iff, noticeOf_eq_none_iff,
      yesNoOf_eq_none_iff, Bool.and_eq_true, freshnessApplies_iff, (kindOf_eq_some_iff _ _).mp hk, ne_eq, beq_iff_eq]
    cases kind <;> simp [RecordKind.code, RecordKind.outputClass]

/-- R200: 0 and 1 are the bytes that name a notice mode, and those that name yes or no. -/
theorem byte_of_le_one {b : Byte} (h : b.toNat ≤ 1) : b = 0 ∨ b = 1 := by
  bv_omega

theorem noticeOf_of_le {b : Byte} (h : b.toNat ≤ 1) : noticeOf b ≠ none := by
  rcases byte_of_le_one h with rfl | rfl <;> decide

theorem yesNoOf_of_le {b : Byte} (h : b.toNat ≤ 1) : yesNoOf b ≠ none := by
  rcases byte_of_le_one h with rfl | rfl <;> decide

/-- R37: fields that pass every check name no failing field. -/
theorem InsertArgs.failing_of_fits {a : InsertArgs} {kind : RecordKind} {g : Segment} (h : a.Fits kind g) :
    a.failing = none := by
  have period : ¬periodBad kind a.period.toNat = true := by
    rw [periodBad_iff, byte_toNat_eq_zero_iff]
    rintro (⟨input, h0⟩ | ⟨guarded, h0⟩)
    · exact h.period.1 input h0
    · exact h0 (byte_toNat_eq_zero_iff _ |>.mpr (h.period.2 guarded))
  have phase : ¬phaseBad a.period.toNat a.phase.toNat = true := by
    rw [phaseBad_iff]
    rcases h.phase with below | ⟨hp, hf⟩
    · omega
    · simp [hp, hf]
  have limit : ¬(freshnessApplies kind a.period.toNat && a.freshnessLimit == 0) = true := by
    rw [Bool.and_eq_true, freshnessApplies_iff, beq_iff_eq, ne_eq, byte_toNat_eq_zero_iff]
    exact fun bad => h.limit bad.1 bad.2
  have notice := noticeOf_of_le h.notice
  have shared := yesNoOf_of_le h.shared
  have value := h.value
  unfold InsertArgs.failing
  simp only [h.kindNamed, h.segmentNamed, ite_some_eq_none, reduceCtorEq, noticeOf_eq_none_iff, yesNoOf_eq_none_iff]
  have := h.station
  have := h.length
  have := h.budget
  refine ⟨not_false, by omega, by omega, period, phase, limit, by omega, ?_, ?_, ?_, ?_, trivial⟩
  · exact fun bad => notice ((noticeOf_eq_none_iff _).mpr bad)
  · exact fun bad => shared ((yesNoOf_eq_none_iff _).mpr bad)
  · cases kind <;> simp_all [RecordKind.outputClass]
  · cases kind <;> simp_all

/-! ### The table (R18, R38) -/

/-- R38: a route that an output-class record holds. -/
theorem Part.routeHeld_iff (s : Part) (g : Segment) (station object : Nat) : s.routeHeld g station object = true ↔
    ∃ m q, s.record m = some q ∧ q.kind.outputClass = true ∧ q.SameRoute g station object := by
  unfold Part.routeHeld
  constructor
  · intro h
    obtain ⟨o, ho, held⟩ := List.any_eq_true.mp h
    obtain ⟨q, rfl, route⟩ := (Option.any_eq_true _ _).mp held
    obtain ⟨m, hm⟩ := List.mem_iff_getElem?.mp ho
    refine ⟨m, q, (s.record_some_iff m q).mpr hm, ?_⟩
    simpa [Record.onStation, Record.SameRoute, and_assoc] using route
  · rintro ⟨m, q, hq, out, route⟩
    refine List.any_eq_true.mpr ⟨some q, List.mem_of_getElem? ((s.record_some_iff m q).mp hq), ?_⟩
    simpa [Record.onStation, Record.SameRoute, and_assoc, out] using route

/-- R18: the lowest FREE slot is the first slot of the table without a record. -/
theorem Part.lowestFree_eq_some {s : Part} {n : Nat} (hn : n < s.slots.length) (free : s.record n = none)
    (taken : ∀ m, m < n → s.record m ≠ none) : s.lowestFree = some n := by
  rw [Part.lowestFree, List.findIdx?_eq_some_iff_getElem]
  refine ⟨hn, by simpa [Part.record, hn] using free, fun m hm => ?_⟩
  have := taken m hm
  simpa [Part.record, Nat.lt_trans hm hn] using this

/-- R18: in a full table there is no FREE slot. -/
theorem Part.lowestFree_eq_none {s : Part} (full : ∀ m, m < s.slots.length → s.record m ≠ none) :
    s.lowestFree = none := by
  rcases h : s.lowestFree with _ | m
  · rfl
  · obtain ⟨hm, free⟩ := Part.lowestFree_some h
    exact absurd free (full m hm)

/-! ### The checks in order (R36) -/

section Checks
variable {s : Part} {p : Port} {f : RequestFrame} {a : InsertArgs} {kind : RecordKind} {g : Segment}

theorem Part.ownInsert_badTag (h0 : f.tag = 0) : s.ownInsert p f = (s, .bare .badTag) := by
  simp [Part.ownInsert, h0]

theorem Part.ownInsert_tagInUse (h0 : f.tag ≠ 0) (bound : (s.slotOfTag f.tag).isSome = true) :
    s.ownInsert p f = (s, .bare .tagInUse) := by
  simp [Part.ownInsert, h0, bound]

theorem Part.ownInsert_badField (h0 : f.tag ≠ 0) (unbound : s.Unbound f.tag) (args : insertArgs f.args = some a)
    {offset : Byte} (failing : a.failing = some offset) : s.ownInsert p f = (s, .badField offset) := by
  simp [Part.ownInsert, h0, Part.slotOfTag_unbound unbound, args, failing]

theorem Part.ownInsert_fits (h0 : f.tag ≠ 0) (unbound : s.Unbound f.tag) (args : insertArgs f.args = some a)
    (fits : a.Fits kind g) : s.ownInsert p f = s.insertChecked p f.tag a kind g := by
  simp [Part.ownInsert, h0, Part.slotOfTag_unbound unbound, args, InsertArgs.failing_of_fits fits, fits.kindNamed,
    fits.segmentNamed]

theorem Part.insertChecked_routeTaken {tag : Nat} (out : kind.outputClass = true)
    (held : s.routeHeld g a.station.toNat a.object.toNat = true) :
    s.insertChecked p tag a kind g = (s, .bare .routeTaken) := by
  simp [Part.insertChecked, out, held]

/-- R38: no route is held against this INSERT. -/
theorem Part.route_free (free : kind.outputClass = true → ∀ m q, s.record m = some q → q.kind.outputClass = true →
      ¬q.SameRoute g a.station.toNat a.object.toNat) :
    ¬(kind.outputClass && s.routeHeld g a.station.toNat a.object.toNat) = true := by
  rw [Bool.and_eq_true, Part.routeHeld_iff]
  rintro ⟨out, m, q, hq, hout, route⟩
  exact free out m q hq hout route

end Checks

/-- Settles O11: the checks are those of the model, one by one. -/
theorem insertNamesFirstBadField : Obligations.InsertNamesFirstBadField := by
  intro p s f a offset standing h0 unbound args names
  exact exec_insert standing (Part.ownInsert_badField h0 unbound args (a.failing_eq.trans names))

/-- Settles O10: by the first check that fails. -/
theorem insertRefused : Obligations.InsertRefused := by
  intro p s f standing
  refine ⟨fun h0 => ?_, fun n r bound => ?_, fun a kind g h0 unbound args fits => ⟨?_, fun free full => ?_⟩⟩
  · exact exec_insert standing (Part.ownInsert_badTag h0)
  · refine exec_insert standing (Part.ownInsert_tagInUse bound.1 ?_)
    by_contra unfound
    exact Part.unbound_of_slotOfTag (by simpa using unfound) n r bound.2.1 bound.2.2
  · rintro ⟨m, q, hq, qout, out, route⟩
    have held := (s.part.routeHeld_iff _ _ _).mpr ⟨m, q, hq, qout, route⟩
    exact exec_insert standing ((Part.ownInsert_fits h0 unbound args fits).trans
      (Part.insertChecked_routeTaken out held))
  · refine exec_insert standing ((Part.ownInsert_fits h0 unbound args fits).trans ?_)
    rw [Part.insertChecked, if_neg (Part.route_free free), Part.lowestFree_eq_none full]
    rfl

/-- Settles O9: every check passes, and the record created is R39's, field by field. -/
theorem insertAccepted : Obligations.InsertAccepted := by
  intro p s f a kind g n standing h0 unbound args fits free hn vacant taken
  refine exec_insert standing ((Part.ownInsert_fits h0 unbound args fits).trans ?_)
  rw [Part.insertChecked, if_neg (Part.route_free free), Part.lowestFree_eq_some hn vacant taken]
  have out : kind.outputClass = decide (kind ≠ .input) := by
    rw [Bool.eq_iff_iff, RecordKind.outputClass_iff, decide_eq_true_eq]
  have value : (if kind.outputClass then some a.value else none) = if kind = .input then none else some a.value := by
    cases kind <;> rfl
  simp only [InsertArgs.record, value]
  simp only [conditionFor_eq, yesNoOf_of_named (yesNoOf_of_le fits.shared),
    noticeOf_of_named (noticeOf_of_le fits.notice), Option.getD_some, byte_toNat_eq_zero_iff, freshnessApplies_iff,
    budgetOf, out, ne_eq]
  rfl

end Sys2Proof.Machine
end

section
/-! SUPPORT. Superseded outcomes, and outcomes on HALTED records and on records whose station has left (R32, R115, R130,
R135). -/

namespace Sys2Proof.Machine

/-- R102: the oldest outcome handed to the Table Controller is taken on the record that it serves. -/
theorem exec_outcomeTaken {g : Segment} {s : State} {o : ExchangeOutcome} {waiting : List ExchangeOutcome} {n : Nat}
    {r : Record} (awake : s.part.resetLow = false) (first : (s.part.engine g).toTable = o :: waiting)
    (slot : o.exchange.slot = some n) (record : s.part.record n = some r) :
    exec (.outcomeTaken g) s = .next (s.with ((s.part.updateEngine g fun e => { e with toTable := waiting }).outcomeOn
      n r o (o.standing.getD (s.part.present r.segment r.station)) false)) := by
  refine (s.claim_awake (·.nextOutcome g) awake).trans (congrArg (fun t => Host.Outcome.next (s.with t)) ?_)
  simp [Part.nextOutcome, first, Part.takeOutcome, slot, record, Part.present, Part.stationState]

/-- R102, R168: the standing that an outcome keeps, or its station's as it is. -/
theorem Part.presentFor_iff (s : Part) (o : ExchangeOutcome) (r : Record) :
    s.PresentFor o r ↔ o.standing.getD (s.present r.segment r.station) = true := by
  unfold Part.PresentFor
  rcases o.standing with _ | standing <;> simp [Part.present_iff]

/-- A record put back as it is. -/
theorem Part.withRecord_self {s : Part} {n : Nat} {r : Record} (h : s.record n = some r) : s.withRecord n r = s := by
  obtain ⟨hn, he⟩ := List.getElem?_eq_some_iff.mp ((s.record_some_iff n r).mp h)
  simp [Part.withRecord, ← he]

/-! ### The outcome on an active record -/

section Active
variable {s : Part} {n : Nat} {r : Record} {o : ExchangeOutcome}

/-- R135: a superseded outcome changes nothing. -/
theorem Part.outcomeOn_superseded (active : r.state.active = true) (superseded : r.supersedes o.exchange = true)
    (present : Bool) : s.outcomeOn n r o present false = s := by
  cases hs : r.state <;> simp_all [Part.outcomeOn, RecordState.active]

/-- R32, R115, R130: an outcome that finds its record HALTED or its station gone; an ACCEPT of a STORE leaves dirty at what
a RESUME had it while HALTED, and at rewritten otherwise (log 11). -/
theorem Part.outcomeOn_aside (active : r.state.active = true) (current : r.supersedes o.exchange = false) {present : Bool}
    (away : r.state = .halted ∨ present = false) : s.outcomeOn n r o present false =
      s.put n (r.aside (r.rewritten || (decide (r.state = .halted) && r.dirty)) o.exchange.kind o.result).1
        (r.aside (r.rewritten || (decide (r.state = .halted) && r.dirty)) o.exchange.kind o.result).2 := by
  cases hs : r.state <;> simp_all [Part.outcomeOn, RecordState.active, Bool.or_comm]

end Active

/-- R135: a guarded exchange is current while the phase names it and the token is its own. -/
theorem Record.supersedes_eq_false_iff (r : Record) (x : Exchange) : r.supersedes x = false ↔
    ∀ phase, x.kind.phase = some phase → r.guardPhase = phase ∧ r.guardToken = x.token := by
  unfold Record.supersedes
  rcases x.kind.phase with _ | phase <;> simp

/-- R125: the echo equals the guard token and the staged copy. -/
theorem Record.echoEqual_iff {r : Record} {token : Nat} {value payload : List Byte} (ht : r.guardToken = some token)
    (hv : r.staged = some value) : r.echoEqual payload = true ↔ payload = BitVec.ofNat 8 token :: value := by
  simp [Record.echoEqual, ht, hv]

/-- R130: the outcomes that leave a record as it is. -/
theorem Record.aside_idle {r : Record} {k : ExchangeKind} {result : ExchangeResult} (dirtyAfter : Bool)
    (store : k ≠ .store) (data : ∀ payload, result ≠ .data payload) (accept : result ≠ .accept)
    (refuse : k = .cancel → result ≠ .refuse) : r.aside dirtyAfter k result = (r, []) := by
  cases k <;> cases result <;> simp_all [Record.aside]

section Taken
variable {g : Segment} {s : State} {o : ExchangeOutcome} {waiting : List ExchangeOutcome} {n : Nat} {r : Record}

theorem exec_outcomeTaken_superseded (awake : s.part.resetLow = false)
    (first : (s.part.engine g).toTable = o :: waiting) (slot : o.exchange.slot = some n)
    (record : s.part.record n = some r) (active : r.state.active = true)
    (superseded : r.supersedes o.exchange = true) : exec (.outcomeTaken g) s =
      .next (s.with (s.part.updateEngine g fun e => { e with toTable := waiting })) :=
  (exec_outcomeTaken awake first slot record).trans
    (congrArg (fun t => Host.Outcome.next (s.with t)) (Part.outcomeOn_superseded active superseded _))

theorem exec_outcomeTaken_aside (awake : s.part.resetLow = false)
    (first : (s.part.engine g).toTable = o :: waiting) (slot : o.exchange.slot = some n)
    (record : s.part.record n = some r) (active : r.state.active = true)
    (current : r.supersedes o.exchange = false) (away : r.state = .halted ∨ ¬s.part.PresentFor o r) {v : Verdict}
    (h : r.aside (r.rewritten || (decide (r.state = .halted) && r.dirty)) o.exchange.kind o.result = v) :
    exec (.outcomeTaken g) s =
      .next (s.with ((s.part.updateEngine g fun e => { e with toTable := waiting }).put n v.1 v.2)) := by
  have away' : r.state = .halted ∨ o.standing.getD (s.part.present r.segment r.station) = false :=
    away.imp_right fun h => by simpa [Part.presentFor_iff] using h
  rw [← h]
  exact (exec_outcomeTaken awake first slot record).trans
    (congrArg (fun t => Host.Outcome.next (s.with t)) (Part.outcomeOn_aside active current away'))

end Taken

/-- Settles O48: a superseded outcome changes nothing; any other, aside, is what `Record.aside` makes of the record. -/
theorem outcomesAsideApply : Obligations.OutcomesAsideApply := by
  intro g s o waiting n r awake first slot record active u becomes x mine phase closed applied
  have hphase : x.kind.phase = phase := by cases hk : x.kind <;> simp [ExchangeKind.phase, phase, hk]
  have superseded : r.supersedes x = true → becomes u := exec_outcomeTaken_superseded awake first slot record active
  refine ⟨fun ph hp other => superseded ?_, fun away => ?_⟩
  · by_contra current
    exact other (((r.supersedes_eq_false_iff x).mp (by simpa using current)) ph (hphase.trans hp))
  have aside {v : Verdict} (current : ∀ ph, phase = some ph → mine ph)
      (h : r.aside (r.rewritten || (decide (r.state = .halted) && r.dirty)) x.kind o.result = v) :
      becomes (u.put n v.1 v.2) :=
    exec_outcomeTaken_aside awake first slot record active
      ((r.supersedes_eq_false_iff x).mpr fun ph hp => current ph (hphase.symm.trans hp)) away h
  have quietly {q : Record} (current : ∀ ph, phase = some ph → mine ph)
      (h : r.aside (r.rewritten || (decide (r.state = .halted) && r.dirty)) x.kind o.result = (q, [])) :
      becomes (u.withRecord n q) := by
    simpa using aside current h
  have unguarded (hk : x.kind = .fetch ∨ x.kind = .store) : ∀ ph, phase = some ph → mine ph := by
    rw [← hphase]
    rcases hk with hk | hk <;> simp [hk, ExchangeKind.phase]
  have guarded {ph : GuardPhase} (hk : x.kind.phase = some ph) (h : mine ph) : ∀ ph, phase = some ph → mine ph := by
    rw [← hphase, hk]
    rintro _ ⟨⟩
    exact h
  refine ⟨fun payload hk hr => ?_, fun hk hr => ?_, fun hk hr => ?_, fun hk hAccept hTimeout hError => ?_,
    fun hk hm hr => ?_, fun token value hk hm ht hv hr => ?_, fun token value payload hk hm ht hv hr echo => ?_,
    fun hk hm hr => ?_, fun hk hm hr => ?_, fun hStore hData hAccept hRefuse => ?_⟩
  · exact aside (unguarded (Or.inl hk)) (congrArg₂ (r.aside _) hk hr)
  · have accepted := aside (unguarded (Or.inr hk)) (congrArg₂ (r.aside _) hk hr)
    simp only [Record.aside, Record.restoreMissed, Bool.or_right_comm _ _ r.missed] at accepted
    exact accepted
  · rcases hr with hr | ⟨error, hr⟩ <;> exact quietly (unguarded (Or.inr hk)) (congrArg₂ (r.aside _) hk hr)
  · refine quietly (unguarded (Or.inr hk)) ?_
    rw [hk]
    cases hr : o.result <;> simp_all [Record.aside]
  · exact quietly (guarded (by rw [hk]; rfl) hm) (congrArg₂ (r.aside _) hk hr)
  · refine quietly (guarded (by rw [hk]; rfl) hm) ?_
    rw [hk, hr]
    exact if_pos ((Record.echoEqual_iff ht hv).mpr rfl)
  · refine quietly (guarded (by rw [hk]; rfl) hm) ?_
    rw [hk, hr]
    exact if_neg fun h => echo ((Record.echoEqual_iff ht hv).mp h)
  · exact aside (guarded (by rw [hk]; rfl) hm) (congrArg₂ (r.aside _) hk hr)
  · rcases hr with hr | hr <;> exact quietly (guarded (by rw [hk]; rfl) hm) (congrArg₂ (r.aside _) hk hr)
  · by_cases current : ∀ ph, phase = some ph → mine ph
    · exact quietly current (Record.aside_idle _ hStore hData hAccept hRefuse)
    · rw [Part.withRecord_self (by simpa [u] using record)]
      refine superseded ?_
      by_contra h
      refine current fun ph hp => (r.supersedes_eq_false_iff x).mp (by simpa using h) ph (hphase.trans hp)

end Sys2Proof.Machine
end

section
/-! SUPPORT. PURGE (R52, R142, R180): the slots that it silences and those that it frees, one after the other. -/

namespace Sys2Proof.Machine

/-! ### Slots that leave the Due Queues and their owner's list -/

/-- R87: two removals one after the other. -/
theorem Engine.remove_remove (e : Engine) (a b : Nat → Bool) :
    (e.remove a).remove b = e.remove fun n => a n || b n := by
  simp [Engine.remove, List.filter_filter, Bool.and_comm]

theorem Engine.remove_nothing (e : Engine) : (e.remove fun _ => false) = e := by
  simp [Engine.remove]

/-- R87: a removal is what its test says of the entries. -/
theorem Engine.remove_congr {e : Engine} {a b : Nat → Bool} (h : ∀ n, e.queued n = true → a n = b n) :
    e.remove a = e.remove b := by
  have active : e.active.filter (fun q => !a q.slot) = e.active.filter (fun q => !b q.slot) :=
    List.filter_congr fun q hq => congrArg _ (h q.slot (by
      simp only [Engine.queued, Bool.or_eq_true, List.any_eq_true]
      exact Or.inl ⟨q, hq, beq_self_eq_true _⟩))
  have held : e.held.filter (fun n => !a n) = e.held.filter (fun n => !b n) :=
    List.filter_congr fun n hn => congrArg _ (h n (by simp [Engine.queued, hn]))
  simp [Engine.remove, active, held]

/-- R52: slots of one owner leave the Due Queues of their segments and their owner's list. -/
structure Part.Withdraws (s t : Part) (p : Port) (gone : List Nat) : Prop where
  lists : ∀ q, (t.port q).attention =
    if q = p then (s.port q).attention.filter (· ∉ gone) else (s.port q).attention
  controls : ∀ g, t.control g = s.control g
  engines : ∀ g, t.engine g =
    (s.engine g).remove fun n => decide (n ∈ gone) && (s.record n).any (·.segment == g)
  bus : s.SameBus t

theorem Part.SameBus.refl (s : Part) : s.SameBus s := ⟨rfl, rfl, rfl, rfl, rfl, rfl, rfl⟩

theorem Part.PortsFlagged.refl (s : Part) : s.PortsFlagged s fun _ => False :=
  fun _ => ⟨rfl, rfl, rfl, fun _ => by simp⟩

theorem Part.Withdraws.refl (s : Part) (p : Port) : s.Withdraws s p [] where
  lists := fun q => by simp
  controls := fun _ => rfl
  engines := fun g => by simp [Engine.remove_nothing]
  bus := .refl s

/-- More slots leave, whose records are still those of the same segments. -/
theorem Part.Withdraws.trans {s t u : Part} {p : Port} {a b : List Nat} (h : s.Withdraws t p a) (k : t.Withdraws u p b)
    (same : ∀ n ∈ b, (t.record n).map (·.segment) = (s.record n).map (·.segment)) : s.Withdraws u p (a ++ b) where
  lists := fun q => by
    rw [k.lists, h.lists]
    split <;> simp [List.filter_filter, Bool.and_comm]
  controls := fun g => (k.controls g).trans (h.controls g)
  engines := fun g => by
    rw [k.engines, h.engines, Engine.remove_remove]
    refine congrArg _ (funext fun n => ?_)
    by_cases hb : n ∈ b
    · have any (o : Option Record) : o.any (·.segment == g) = (o.map (·.segment)).any (· == g) := by
        rcases o with _ | r <;> rfl
      rw [any, any, same n hb, ← Bool.and_or_distrib_right]
      simp [hb]
    · simp [hb]
  bus := h.bus.trans k.bus

/-- One slot leaves the Due Queue of its record's segment. -/
theorem Part.remove_slot {s : Part} {n : Nat} {r : Record} (h : s.record n = some r) (g : Segment) :
    (if g = r.segment then (s.engine g).remove (· == n) else s.engine g) =
      (s.engine g).remove fun m => decide (m ∈ [n]) && (s.record m).any (·.segment == g) := by
  have test (m : Nat) : (decide (m ∈ [n]) && (s.record m).any (·.segment == g)) = (m == n && r.segment == g) := by
    by_cases hm : m = n
    · subst hm
      simp [h]
    · simp [hm]
  rw [funext test]
  by_cases hg : g = r.segment
  · simp [hg]
  · have other : (r.segment == g) = false := beq_eq_false_iff_ne.mpr (Ne.symm hg)
    simp [hg, other, Engine.remove_nothing]

theorem Part.PortsFlagged.of_ports {s t : Part} (h : ∀ p, t.port p = s.port p) : s.PortsFlagged t fun _ => False :=
  fun p => by rw [h p]; exact Part.PortsFlagged.refl s p

@[simp] theorem Part.withRecord_station (s : Part) (n : Nat) (r : Record) (g : Segment) (k : Nat) :
    (s.withRecord n r).station g k = s.station g k := by
  simp [Part.station]

/-- What holds of no slot, and of one more slot of the port after each step, holds after a step for each of some slots. -/
theorem foldl_owned {s : Part} {p : Port} {step : Part → Nat → Part} {R : Part → List Nat → Prop} (nil : R s [])
    (one : ∀ {t : Part} {gone : List Nat} {n : Nat} {r : Record}, R t gone → n ∉ gone → s.record n = some r →
      r.owner = p → R (step t n) (gone ++ [n])) {slots : List Nat} (nodup : slots.Nodup)
    (owned : ∀ n ∈ slots, ∃ r, s.record n = some r ∧ r.owner = p) : R (slots.foldl step s) slots := by
  induction slots using List.reverseRecOn with
  | nil => exact nil
  | append_singleton slots n ih =>
    obtain ⟨nodup, -, apart⟩ := List.nodup_append.mp nodup
    obtain ⟨r, hr, owner⟩ := owned n (by simp)
    rw [List.foldl_append]
    exact one (ih nodup fun m hm => owned m (by simp [hm])) (fun hn => apart n hn n (by simp) rfl) hr owner

/-! ### Silence -/

/-- R52: a purged record with an exchange in flight. -/
def Record.purged (r : Record) : Record := { r with state := .retiring, silentRetire := true }

theorem Part.silence_eq {s : Part} {n : Nat} {r : Record} (h : s.record n = some r) : s.silence n =
    ((s.dequeue r.segment n).withRecord n r.purged).updatePort r.owner
      fun u => { u with attention := u.attention.filter (· != n) } := by
  simp [Part.silence, h, Record.purged]

/-- R52: slots become RETIRING with silent retire. -/
structure Part.Silences (s t : Part) (p : Port) (gone : List Nat) : Prop extends s.Withdraws t p gone where
  records : ∀ n, t.record n = if n ∈ gone then (s.record n).map Record.purged else s.record n
  stations : ∀ g k, t.station g k = s.station g k
  flagged : s.PortsFlagged t fun _ => False

theorem Part.Silences.refl (s : Part) (p : Port) : s.Silences s p [] where
  toWithdraws := .refl s p
  records := fun n => by simp
  stations := fun _ _ => rfl
  flagged := .refl s

/-- A list of a port is filtered, and nothing else of the ports changes. -/
theorem Part.updatePort_attention_flagged (s : Part) (p : Port) (f : List Nat → List Nat) :
    s.PortsFlagged (s.updatePort p fun u => { u with attention := f u.attention }) fun _ => False := by
  intro q
  by_cases h : q = p
  · subst h
    rw [Part.updatePort_port]
    exact ⟨rfl, rfl, rfl, fun g => by cases g <;> simp [PortUnit.flag]⟩
  · rw [Part.updatePort_port_ne _ _ _ _ h]
    exact Part.PortsFlagged.refl s q

/-- R52: one record is silenced. -/
theorem Part.silence_silences {s : Part} {n : Nat} {r : Record} (h : s.record n = some r) :
    s.Silences (s.silence n) r.owner [n] := by
  rw [Part.silence_eq h]
  refine ⟨⟨fun q => ?_, fun g => ?_, fun g => ?_, ?_⟩, fun m => ?_, fun g k => ?_, ?_⟩
  · split
    · next hq =>
      subst hq
      simp [Part.dequeue, bne, beq_eq_decide]
    · next hq => simp [Part.dequeue, Part.updatePort_port_ne _ _ _ _ hq]
  · simp [Part.dequeue]
  · rw [← Part.remove_slot h g]
    simp [Part.dequeue, Part.updateEngine_engine_eq]
  · simp [Part.SameBus, Part.dequeue]
  · rw [Part.updatePort_record]
    by_cases hm : m = n
    · subst hm
      rw [Part.withRecord_record _ _ _ (by simpa [Part.dequeue] using Part.record_lt h)]
      simp [h]
    · rw [Part.withRecord_record_ne _ _ _ _ hm]
      simp [hm]
  · simp [Part.dequeue]
  · have same : s.PortsFlagged ((s.dequeue r.segment n).withRecord n r.purged) fun _ => False :=
      .of_ports fun q => by simp [Part.dequeue]
    exact (same.trans (Part.updatePort_attention_flagged _ r.owner (·.filter (· != n)))).congr fun _ => or_self_iff

/-- R52: one more record is silenced. -/
theorem Part.Silences.silence {s t : Part} {p : Port} {gone : List Nat} (h : s.Silences t p gone) {n : Nat} {r : Record}
    (new : n ∉ gone) (hr : s.record n = some r) (owner : r.owner = p) : s.Silences (t.silence n) p (gone ++ [n]) := by
  have same : t.record n = s.record n := by rw [h.records, if_neg new]
  have k := owner ▸ Part.silence_silences (same.trans hr)
  refine ⟨h.toWithdraws.trans k.toWithdraws fun m hm => ?_, fun m => ?_, fun g j => ?_, ?_⟩
  · rw [List.mem_singleton.mp hm, same]
  · rw [k.records, h.records]
    by_cases hm : m = n
    · simp [hm, new]
    · simp [hm]
  · rw [k.stations, h.stations]
  · exact (h.flagged.trans k.flagged).congr fun _ => or_self_iff

/-- R52: the records of a port in some slots are silenced, one after the other. -/
theorem Part.silences_foldl {s : Part} {p : Port} {slots : List Nat} (nodup : slots.Nodup)
    (owned : ∀ n ∈ slots, ∃ r, s.record n = some r ∧ r.owner = p) : s.Silences (slots.foldl Part.silence s) p slots :=
  foldl_owned (R := fun t gone => s.Silences t p gone) (.refl s p) (fun h new hr owner => h.silence new hr owner) nodup owned

/-! ### Release -/

/-- R142: no record is routed to a station whose reference count is 0. -/
theorem Part.refCount_eq_zero_iff (s : Part) (g : Segment) (k : Nat) : s.refCount g k = 0 ↔
    ∀ n r, s.record n = some r → ¬(r.segment = g ∧ r.station = k) := by
  rw [Part.refCount, List.countP_eq_zero]
  constructor
  · rintro unused n r hr ⟨hg, hk⟩
    exact unused _ (List.mem_of_getElem? ((s.record_some_iff n r).mp hr)) (by simp [Record.onStation, hg, hk])
  · intro unused o ho routed
    obtain ⟨n, hn⟩ := List.mem_iff_getElem?.mp ho
    obtain ⟨r, rfl, route⟩ := (Option.any_eq_true _ _).mp routed
    exact unused n r ((s.record_some_iff n r).mpr hn) (by simpa [Record.onStation] using route)

/-- R19, R142: what a release makes of the stations' entries. -/
theorem Part.release_station {s : Part} {n : Nat} {r : Record} (h : s.record n = some r) (g : Segment) (k : Nat) :
    (s.release n).station g k = if g = r.segment ∧ k = r.station ∧ (s.release n).refCount g k = 0 then
      (s.station g k).map Station.forgotten else s.station g k := by
  have count : (s.release n).refCount g k = (s.vacated n r).refCount g k := by
    simp [Part.release_eq h, Part.refCount]
  rw [count, Part.release_eq h, Part.forgetUnused_station, Part.vacated_station]
  by_cases route : g = r.segment ∧ k = r.station
  · simp [route]
  · rw [if_neg fun c => route ⟨c.1, c.2.1⟩, if_neg fun c => route ⟨c.1, c.2.1⟩]

/-- R142: a station has lost its last record with the slots that are gone. -/
def Part.Loses (s t : Part) (gone : List Nat) (g : Segment) (k : Nat) : Prop :=
  t.refCount g k = 0 ∧ ∃ n ∈ gone, ∃ r, s.record n = some r ∧ r.segment = g ∧ r.station = k

/-- R19, R52: slots are released, and the stations that lose their last record forget. -/
structure Part.Frees (s t : Part) (p : Port) (gone : List Nat) : Prop extends s.Withdraws t p gone where
  records : ∀ n, t.record n = if n ∈ gone then none else s.record n
  forgets : ∀ g k, s.Loses t gone g k → t.station g k = (s.station g k).map Station.forgotten
  keeps : ∀ g k, ¬s.Loses t gone g k → t.station g k = s.station g k
  flagged : s.PortsFlagged t fun g => ∃ k e, s.Loses t gone g k ∧ s.station g k = some e ∧ e.state = .silent

theorem Part.Frees.refl (s : Part) (p : Port) : s.Frees s p [] where
  toWithdraws := .refl s p
  records := fun n => by simp
  forgets := fun g k h => by simp [Part.Loses] at h
  keeps := fun _ _ _ => rfl
  flagged := (Part.PortsFlagged.refl s).congr fun g => by simp [Part.Loses]

theorem Part.release_withdraws {s : Part} {n : Nat} {r : Record} (h : s.record n = some r) :
    s.Withdraws (s.release n) r.owner [n] := by
  obtain ⟨-, lists, segments, -, -, bus, -⟩ := releaseFreesSlot s n r h
  refine ⟨fun q => ?_, fun g => (segments g).1, fun g => ?_, bus⟩
  · rw [lists]
    simp
  · rw [(segments g).2, Part.remove_slot h]

/-- R142: with one more slot released, a station loses its last record if it had lost it before, or with that slot. -/
theorem Part.loses_release {s t : Part} {gone : List Nat} {n : Nat} {r : Record} (new : n ∉ gone)
    (records : ∀ m, t.record m = if m ∈ gone then none else s.record m) (hr : s.record n = some r) (g : Segment) (k : Nat) :
    s.Loses (t.release n) (gone ++ [n]) g k ↔
      s.Loses t gone g k ∨ (g = r.segment ∧ k = r.station ∧ (t.release n).refCount g k = 0) := by
  have later (m : Nat) (q : Record) (hm : m ≠ n) : (t.release n).record m = some q ↔ t.record m = some q := by
    rw [Part.release_record, if_neg hm]
  constructor
  · rintro ⟨unused, m, hm, q, hq, route⟩
    by_cases last : g = r.segment ∧ k = r.station
    · exact Or.inr ⟨last.1, last.2, unused⟩
    · have elsewhere : m ≠ n := by
        rintro rfl
        rw [hr] at hq
        cases hq
        exact last ⟨route.1.symm, route.2.symm⟩
      refine Or.inl ⟨(t.refCount_eq_zero_iff g k).mpr fun i p hp at' => ?_, m, ?_, q, hq, route⟩
      · by_cases hi : i = n
        · subst hi
          rw [records, if_neg new, hr] at hp
          cases hp
          exact last ⟨at'.1.symm, at'.2.symm⟩
        · exact ((t.release n).refCount_eq_zero_iff g k).mp unused i p ((later i p hi).mpr hp) at'
      · simpa [elsewhere] using hm
  · rintro (⟨unused, m, hm, routed⟩ | ⟨rfl, rfl, unused⟩)
    · refine ⟨((t.release n).refCount_eq_zero_iff g k).mpr fun i p hp => ?_, m, by simp [hm], routed⟩
      have hi : i ≠ n := by
        rintro rfl
        simp [Part.release_record] at hp
      exact (t.refCount_eq_zero_iff g k).mp unused i p ((later i p hi).mp hp)
    · exact ⟨unused, n, by simp, r, hr, rfl, rfl⟩

/-- R142: a record that is still there keeps its station's entry. -/
theorem Part.not_loses_of_record {s t : Part} {gone : List Nat} {n : Nat} {r : Record} (hr : t.record n = some r) :
    ¬s.Loses t gone r.segment r.station :=
  fun h => (t.refCount_eq_zero_iff _ _).mp h.1 n r hr ⟨rfl, rfl⟩

/-- R19, R52: one more record is released. -/
theorem Part.Frees.release {s t : Part} {p : Port} {gone : List Nat} (h : s.Frees t p gone) {n : Nat} {r : Record}
    (new : n ∉ gone) (hr : s.record n = some r) (owner : r.owner = p) : s.Frees (t.release n) p (gone ++ [n]) := by
  have same : t.record n = s.record n := by rw [h.records, if_neg new]
  have ht := same.trans hr
  have loses := Part.loses_release new h.records hr
  have kept : t.station r.segment r.station = s.station r.segment r.station :=
    h.keeps _ _ (Part.not_loses_of_record ht)
  refine ⟨h.toWithdraws.trans (owner ▸ Part.release_withdraws ht) fun m hm => ?_, fun m => ?_, fun g k lost => ?_,
    fun g k keeps => ?_, ?_⟩
  · rw [List.mem_singleton.mp hm, same]
  · rw [Part.release_record, h.records]
    by_cases hm : m = n <;> simp [hm]
  · rw [Part.release_station ht]
    rcases (loses g k).mp lost with before | last
    · have route : ¬(g = r.segment ∧ k = r.station ∧ (t.release n).refCount g k = 0) := by
        rintro ⟨rfl, rfl, -⟩
        exact Part.not_loses_of_record ht before
      rw [if_neg route, h.forgets g k before]
    · obtain ⟨rfl, rfl, -⟩ := id last
      rw [if_pos last, kept]
  · rw [Part.release_station ht, if_neg fun last => keeps ((loses g k).mpr (Or.inr last)),
      h.keeps g k fun before => keeps ((loses g k).mpr (Or.inl before))]
  · obtain ⟨-, -, -, -, -, -, flags⟩ := releaseFreesSlot t n r ht
    refine (h.flagged.trans flags).congr fun g => ?_
    constructor
    · rintro (⟨k, e, before, he, silent⟩ | ⟨rfl, unused, e, he, silent⟩)
      · exact ⟨k, e, (loses g k).mpr (Or.inl before), he, silent⟩
      · exact ⟨r.station, e, (loses _ _).mpr (Or.inr ⟨rfl, rfl, unused⟩), kept ▸ he, silent⟩
    · rintro ⟨k, e, lost, he, silent⟩
      rcases (loses g k).mp lost with before | ⟨rfl, rfl, unused⟩
      · exact Or.inl ⟨k, e, before, he, silent⟩
      · exact Or.inr ⟨rfl, unused, e, kept.trans he, silent⟩

/-- R52: the records of a port in some slots are released, one after the other. -/
theorem Part.frees_foldl {s : Part} {p : Port} {slots : List Nat} (nodup : slots.Nodup)
    (owned : ∀ n ∈ slots, ∃ r, s.record n = some r ∧ r.owner = p) : s.Frees (slots.foldl Part.release s) p slots :=
  foldl_owned (R := fun t gone => s.Frees t p gone) (.refl s p) (fun h new hr owner => h.release new hr owner) nodup owned

/-! ### PURGE -/

theorem Part.mem_purgeFreed (s : Part) (p : Port) (n : Nat) :
    n ∈ s.purgeFreed p ↔ ∃ r, s.record n = some r ∧ r.owner = p ∧ s.inFlight n r = false := by
  simp [Part.purgeFreed, Part.mem_slotsWhere]

theorem Part.mem_purgeSilenced (s : Part) (p : Port) (n : Nat) :
    n ∈ s.purgeSilenced p ↔ ∃ r, s.record n = some r ∧ r.owner = p ∧ s.inFlight n r = true := by
  simp [Part.purgeSilenced, Part.mem_slotsWhere]

/-- R52: the slots that PURGE silences or frees are those of the caller's records. -/
theorem Part.mem_purged_iff (s : Part) (p : Port) (n : Nat) :
    n ∈ s.purgeSilenced p ++ s.purgeFreed p ↔ ∃ r, s.record n = some r ∧ r.owner = p := by
  rw [List.mem_append, Part.mem_purgeSilenced, Part.mem_purgeFreed]
  constructor
  · rintro (⟨r, hr, owner, -⟩ | ⟨r, hr, owner, -⟩) <;> exact ⟨r, hr, owner⟩
  · rintro ⟨r, hr, owner⟩
    cases flight : s.inFlight n r
    · exact Or.inr ⟨r, hr, owner, flight⟩
    · exact Or.inl ⟨r, hr, owner, flight⟩

/-- R52: no slot is both freed and silenced. -/
theorem Part.purgeFreed_apart {s : Part} {p : Port} {n : Nat} (h : n ∈ s.purgeFreed p) : n ∉ s.purgeSilenced p := by
  rw [Part.mem_purgeFreed] at h
  rw [Part.mem_purgeSilenced]
  rintro ⟨r, hr, -, flight⟩
  obtain ⟨q, hq, -, rest⟩ := h
  rw [hr] at hq
  cases hq
  simp [flight] at rest

/-- R52: the part once PURGE has silenced the records in flight, before it frees the others. -/
def Part.purgeSilence (s : Part) (p : Port) : Part := (s.purgeSilenced p).foldl Part.silence s

theorem Part.purgeSilence_silences (s : Part) (p : Port) : s.Silences (s.purgeSilence p) p (s.purgeSilenced p) :=
  Part.silences_foldl (s.nodup_slotsWhere _) fun n hn => (s.mem_purged_iff p n).mp (List.mem_append_left _ hn)

/-- R52: a record that PURGE frees is as it was when the others have been silenced. -/
theorem Part.purgeSilence_record {s : Part} {p : Port} {n : Nat} (h : n ∈ s.purgeFreed p) :
    (s.purgeSilence p).record n = s.record n := by
  rw [(s.purgeSilence_silences p).records, if_neg (Part.purgeFreed_apart h)]

theorem Part.ownPurge_frees (s : Part) (p : Port) : (s.purgeSilence p).Frees (s.ownPurge p).1 p (s.purgeFreed p) :=
  Part.frees_foldl (s.nodup_slotsWhere _) fun n hn => by
    rw [Part.purgeSilence_record hn]
    exact (s.mem_purged_iff p n).mp (List.mem_append_right _ hn)

/-- R52: all records of the caller leave the Due Queues and its list. -/
theorem Part.ownPurge_withdraws (s : Part) (p : Port) :
    s.Withdraws (s.ownPurge p).1 p (s.purgeSilenced p ++ s.purgeFreed p) :=
  (s.purgeSilence_silences p).toWithdraws.trans (s.ownPurge_frees p).toWithdraws
    fun _ hn => by rw [Part.purgeSilence_record hn]

/-- R142: the stations that lose their last record in a PURGE. -/
theorem Part.ownPurge_loses (s : Part) (p : Port) (g : Segment) (k : Nat) :
    (s.purgeSilence p).Loses (s.ownPurge p).1 (s.purgeFreed p) g k ↔
      (s.ownPurge p).1.refCount g k = 0 ∧ ∃ n r, s.record n = some r ∧ r.owner = p ∧ s.inFlight n r = false ∧
        r.segment = g ∧ r.station = k := by
  refine and_congr_right fun _ => ⟨?_, ?_⟩
  · rintro ⟨n, hn, r, hr, route⟩
    rw [Part.purgeSilence_record hn] at hr
    obtain ⟨q, hq, owner, flight⟩ := (s.mem_purgeFreed p n).mp hn
    rw [hr] at hq
    cases hq
    exact ⟨n, r, hr, owner, flight, route⟩
  · rintro ⟨n, r, hr, owner, flight, route⟩
    have hn := (s.mem_purgeFreed p n).mpr ⟨r, hr, owner, flight⟩
    exact ⟨n, hn, r, (Part.purgeSilence_record hn).trans hr, route⟩

/-- R52: what PURGE makes of each slot. -/
theorem Part.ownPurge_record (s : Part) (p : Port) (n : Nat) : (s.ownPurge p).1.record n =
    if n ∈ s.purgeFreed p then none
    else if n ∈ s.purgeSilenced p then (s.record n).map Record.purged else s.record n := by
  rw [(s.ownPurge_frees p).records, (s.purgeSilence_silences p).records]

/-- R174: the caller's list is empty, since it named the caller's records alone. -/
theorem Part.ownPurge_attention {s : Part} (hl : s.ListsSound) (p q : Port) :
    ((s.ownPurge p).1.port q).attention = if q = p then [] else (s.port q).attention := by
  rw [(s.ownPurge_withdraws p).lists]
  split
  · next h =>
    subst h
    refine List.filter_eq_nil_iff.mpr fun n hn => ?_
    obtain ⟨r, hr, owner, -⟩ := (hl q).2 n hn
    exact fun stays => of_decide_eq_true stays ((s.mem_purged_iff q n).mpr ⟨r, hr, owner⟩)
  · rfl

/-- R84, R87: the caller's records leave each Due Queue, where only records of its segment stand. -/
theorem Part.ownPurge_engine {s : Part} (hq : s.QueuesSound) (p : Port) (g : Segment) :
    (s.ownPurge p).1.engine g = (s.engine g).remove fun n => (s.record n).any (·.owner == p) := by
  rw [(s.ownPurge_withdraws p).engines]
  refine Engine.remove_congr fun n hn => ?_
  obtain ⟨r, hr, rfl, -⟩ := (hq g).entries n hn
  rw [Bool.eq_iff_iff, Bool.and_eq_true, decide_eq_true_eq, Part.mem_purged_iff]
  simp [hr]

/-- Settles O20: the records in flight are silenced, the others freed, and a station forgets with its last one. -/
theorem purgeFreesOwned : Obligations.PurgeFreesOwned := by
  intro p s f standing hq hl owned lost
  have frees := s.part.ownPurge_frees p
  have silences := s.part.purgeSilence_silences p
  have hlost : ∀ g k, (s.part.purgeSilence p).Loses (s.part.ownPurge p).1 (s.part.purgeFreed p) g k ↔
      lost (s.part.ownPurge p).1 g k := s.part.ownPurge_loses p
  refine ⟨(s.part.ownPurge p).1, s.part.purgeFreed p, s.part.purgeSilenced p, exec_purge standing rfl,
    ⟨s.part.nodup_slotsWhere _, s.part.mem_purgeFreed p⟩, ⟨s.part.nodup_slotsWhere _, s.part.mem_purgeSilenced p⟩,
    fun n hn => ?_, fun n r hn hr => ?_, fun n hn => ?_, Part.ownPurge_attention hl p,
    fun g => ⟨(s.part.ownPurge_withdraws p).controls g, _, fun n => ?_, Part.ownPurge_engine hq p g⟩,
    fun g k e he => ?_, (s.part.ownPurge_withdraws p).bus, ?_⟩
  · rw [Part.ownPurge_record, if_pos hn]
  · rw [Part.ownPurge_record, if_neg fun h => Part.purgeFreed_apart h hn, if_pos hn, hr]
    rfl
  · have out : n ∉ s.part.purgeSilenced p ++ s.part.purgeFreed p := fun h => hn ((s.part.mem_purged_iff p n).mp h)
    rw [List.mem_append, not_or] at out
    rw [Part.ownPurge_record, if_neg out.2, if_neg out.1]
  · simp [owned, Option.any_eq_true]
  · have before : (s.part.purgeSilence p).station g k = some e := (silences.stations g k).trans he
    have forgets : lost (s.part.ownPurge p).1 g k → (s.part.ownPurge p).1.station g k = some e.forgotten := fun h => by
      rw [frees.forgets g k ((hlost g k).mpr h), before]
      rfl
    refine ⟨fun ⟨h, silent⟩ => ?_, fun ⟨h, absent⟩ => ?_, ?_⟩
    · simpa [Station.forgotten, silent] using forgets h
    · simpa [Station.forgotten, absent] using forgets h
    · by_cases h : lost (s.part.ownPurge p).1 g k
      · rintro (h' | present | barred)
        · exact absurd h h'
        · simpa [Station.forgotten, present] using forgets h
        · simpa [Station.forgotten, barred] using forgets h
      · intro _
        rw [frees.keeps g k (mt (hlost g k).mp h), before]
  · refine (silences.flagged.trans frees.flagged).congr fun g => ?_
    simp only [false_or, hlost, silences.stations]

end Sys2Proof.Machine
end

section
/-! SUPPORT. The exchange on the line (chapter 3): how it ends, and the timers that end it. -/

namespace Sys2Proof.Machine

/-! ### The claims of a Segment Engine -/

/-- R26: a claim on the engine of a segment, taken outside reset. -/
theorem State.claim_engine {s : State} {g : Segment} {f : Part → Engine → Engine} {e : Engine}
    (awake : s.part.resetLow = false) (h : f s.part (s.part.engine g) = e) :
    (s.claim fun t => t.updateEngine g (f t)) = .next (s.with (s.part.updateEngine g fun _ => e)) := by
  rw [State.claim_awake _ _ awake, ← h]
  rfl

/-- A claim that leaves the engine as it is leaves the part as it is. -/
theorem Part.updateEngine_self (s : Part) (g : Segment) : (s.updateEngine g fun _ => s.engine g) = s := by
  cases g <;> rfl

/-! ### The reservation and the settling time (R72, R73) -/

theorem ExchangeResult.quick_iff (r : ExchangeResult) :
    r.quick = true ↔ r = .accept ∨ (∃ bytes, r = .data bytes) ∨ ∃ i, r = .ident i := by
  cases r <;> simp [ExchangeResult.quick]

/-- R73: what the end of an exchange makes of the engine. -/
theorem Engine.complete_exchange {e : Engine} {x : Exchange} (h : e.exchange = some x) (c : SegmentConfig)
    (r : ExchangeResult) : e.complete c r = { e with
      exchange := none
      state := .settle (settlingTime c x r)
      toTable := if x.slot = none then e.toTable else e.toTable ++ [⟨x, r, none⟩]
      toStations := e.toStations ++ [⟨x, r, none⟩] } := by
  cases hs : x.slot <;> simp [Engine.complete, h, hs]

/-- Settles O41: the characters of each kind's frames, and the settling time of each kind of result. -/
theorem reservationAndSettling : Obligations.ReservationAndSettling := by
  refine ⟨fun w l => ?_, ?_⟩
  · simp only [reservationBits, frameChars, ExchangeKind.requestPayload, ExchangeKind.replyPayload, Config.gapBits]
    omega
  intro e c x result inFlight clean ended
  refine ⟨fun quick => ?_, fun slow => ?_⟩
  · rw [Engine.complete_exchange inFlight, settlingTime, if_pos (result.quick_iff.mpr quick)]
    rfl
  · rw [Engine.complete_exchange inFlight, settlingTime, if_neg (mt result.quick_iff.mp slow)]

/-! ### The window, the pause and the deadline (R67, R68, R70) -/

section Timers
variable {e : Engine} (c : SegmentConfig)

/-- R67: no start bit has begun in the window. -/
theorem Engine.expireWindow_wait {left : Nat} (h : e.state = .wait left) :
    e.expireWindow c = (e.elapse left).complete c .timeout := by
  simp [Engine.expireWindow, h]

/-- R70: the pause after a character, where the deadline does not come before its end. -/
theorem Engine.expireGap_reply {deadline next : Nat} {b : Byte} {bytes : List Byte}
    (h : e.state = .reply deadline next (b :: bytes)) (before : c.longPause ≤ deadline) :
    e.expireGap c = (e.elapse c.longPause).complete c (.error .frameError) := by
  simp [Engine.expireGap, h, before]

/-- R68: the deadline of an incomplete reply. -/
theorem Engine.expireDeadline_reply {deadline next : Nat} {bytes : List Byte}
    (h : e.state = .reply deadline next bytes) :
    e.expireDeadline c = (e.elapse deadline).complete c (.error .frameError) := by
  simp [Engine.expireDeadline, h]

end Timers

/-- Settles O42: each timer's claim, by the engine state in which it runs. -/
theorem timersEndTheExchange : Obligations.TimersEndTheExchange := by
  intro g s awake e c ends
  refine ⟨fun left waiting => ?_, fun deadline next b bytes replying before => ?_,
    fun deadline next bytes replying => ?_⟩
  · exact State.claim_engine (f := fun t e => e.expireWindow (t.control g).config) awake
      (Engine.expireWindow_wait c waiting)
  · exact State.claim_engine (f := fun t e => e.expireGap (t.control g).config) awake
      (Engine.expireGap_reply c replying before)
  · exact State.claim_engine (f := fun t e => e.expireDeadline (t.control g).config) awake
      (Engine.expireDeadline_reply c replying)

end Sys2Proof.Machine
end

section
/-! SUPPORT. The judgement of a complete reply (R71): its check, and the four tests on its header and payload. -/

namespace Sys2Proof.Machine

/-! ### The check (R59) -/

/-- R57: two bytes spell the 16-bit number that they are the digits of, high byte first. -/
theorem be16_eq_iff {n : Nat} (h : n < 65536) (high low : Byte) : be16 n = [high, low] ↔ ofBe16 high low = n := by
  simp only [be16, ofBe16, List.cons.injEq, and_true, ← BitVec.toNat_inj, BitVec.toNat_ofNat]
  omega

/-- R71: the first test, on the frame of a header, a payload and two check bytes. -/
theorem judge_frame (x : Exchange) (kind station object n high low : Byte) (payload : List Byte) :
    judge x (([kind, station, object, n] ++ payload) ++ [high, low]) =
      if ofBe16 high low = (check ([kind, station, object, n] ++ payload)).toNat then
        judgeHeader x kind station object payload
      else .error .checkError := by
  have cut : (([kind, station, object, n] ++ payload) ++ [high, low]).length - 2 =
      ([kind, station, object, n] ++ payload).length := by simp
  simp only [judge, cut, List.take_left, List.drop_left, ne_eq, ite_not,
    be16_eq_iff (check ([kind, station, object, n] ++ payload)).isLt]
  rfl

/-! ### The kind (R57, R62) -/

/-- R57: the code of a reply kind in bits 3 to 0 of byte 0. -/
def ReplyKind.code : ReplyKind → Byte
  | .data => 0x9#8
  | .accept => 0xA#8
  | .defer => 0xB#8
  | .refuse => 0xC#8
  | .ident => 0xD#8

theorem replyKind_eq_some_iff (b : Byte) (r : ReplyKind) : replyKind b = some r ↔ b &&& 0x0F#8 = r.code := by
  unfold replyKind
  split
  case h_6 => cases r <;> simp_all [ReplyKind.code]
  all_goals
    next h => rw [h]; cases r <;> decide

section Expected
variable (k : ExchangeKind) (length : Nat)

theorem ExchangeKind.expected_data : k.expected length .data =
    if k = .fetch then some length else if k = .verify then some (1 + length) else none := by
  cases k <;> rfl

theorem ExchangeKind.expected_accept : k.expected length .accept =
    if k = .store ∨ k = .stage ∨ k = .commit ∨ k = .cancel then some 0 else none := by
  cases k <;> rfl

theorem ExchangeKind.expected_defer : k.expected length .defer = if k ≠ .probe then some 0 else none := by
  cases k <;> rfl

theorem ExchangeKind.expected_refuse : k.expected length .refuse = if k ≠ .probe then some 0 else none := by
  cases k <;> rfl

theorem ExchangeKind.expected_ident : k.expected length .ident = if k = .probe then some 5 else none := by
  cases k <;> rfl

end Expected

/-! ### The tests on header and payload (R71) -/

section Header
variable {x : Exchange} {kind station object : Byte} (payload : List Byte)

theorem judgeHeader_wrongStation (other : station.toNat ≠ x.station) :
    judgeHeader x kind station object payload = .error .wrongStation :=
  if_pos other

/-- R62, R71: a kind that the exchange does not admit, or another object. -/
theorem judgeHeader_frameError (own : station.toNat = x.station)
    (bad : (replyKind kind).bind (x.kind.expected x.length) = none ∨ object.toNat ≠ x.object) :
    judgeHeader x kind station object payload = .error .frameError := by
  rcases hr : replyKind kind with - | r
  · simp [judgeHeader, own, hr]
  · rcases hk : x.kind.expected x.length r with - | k
    · simp [judgeHeader, own, hr, hk]
    · have other : object.toNat ≠ x.object := bad.resolve_left (by simp [hr, hk])
      simp [judgeHeader, own, hr, hk, other]

/-- R71: the last test, the payload's length. -/
theorem judgeHeader_expected {r : ReplyKind} {k : Nat} (own : station.toNat = x.station) (named : replyKind kind = some r)
    (expected : x.kind.expected x.length r = some k) (same : object.toNat = x.object) :
    judgeHeader x kind station object payload =
      if payload.length < k then .error .shortReply
      else if k < payload.length then .error .longReply
      else cleanResult r payload := by
  simp [judgeHeader, own, named, expected, same]

end Header

/-- Settles O44: the check by `judge_frame`, the other tests by the reply kind that byte 0 names. -/
theorem replyIsJudged : Obligations.ReplyIsJudged := by
  intro x kind station object n high low payload _ body named expected result
  have judged : result = if ofBe16 high low = (check body).toNat then judgeHeader x kind station object payload
      else .error .checkError := judge_frame x kind station object n high low payload
  have named_iff (r : ReplyKind) : replyKind kind = some r ↔ named = r.code := replyKind_eq_some_iff kind r
  have expects : (replyKind kind).bind (x.kind.expected x.length) = expected := by
    rcases hr : replyKind kind with - | r
    · have no (r : ReplyKind) : named ≠ r.code := mt (named_iff r).mpr (by simp [hr])
      simp [expected, show named ≠ 0x9#8 from no .data, show named ≠ 0xA#8 from no .accept,
        show named ≠ 0xB#8 from no .defer, show named ≠ 0xC#8 from no .refuse, show named ≠ 0xD#8 from no .ident]
    · have code := (named_iff r).mp hr
      cases r <;> simp [expected, code, ReplyKind.code, ExchangeKind.expected_data, ExchangeKind.expected_accept,
        ExchangeKind.expected_defer, ExchangeKind.expected_refuse, ExchangeKind.expected_ident]
  refine ⟨fun bad => judged.trans (if_neg bad), fun good => ?_⟩
  rw [judged.trans (if_pos good)]
  refine ⟨judgeHeader_wrongStation payload, fun own => ⟨fun bad => ?_, fun k hk same => ?_⟩⟩
  · exact judgeHeader_frameError payload own (by rwa [expects])
  obtain ⟨r, hr, hrk⟩ := Option.bind_eq_some_iff.mp (expects.trans hk)
  rw [judgeHeader_expected payload own hr hrk same]
  refine ⟨fun short => if_pos short, fun long => ?_, fun fit => ?_⟩
  · rw [if_neg (Nat.lt_asymm long), if_pos long]
  rw [if_neg (by omega), if_neg (by omega)]
  have clean {q : ReplyKind} (h : named = q.code) : cleanResult r payload = cleanResult q payload := by
    rw [Option.some_inj.mp (hr.symm.trans ((named_iff q).mpr h))]
  refine ⟨clean (q := .data), clean (q := .accept), clean (q := .defer), clean (q := .refuse), ?_⟩
  rintro ident b₃ b₂ b₁ b₀ cls rfl
  exact clean (q := .ident) ident

end Sys2Proof.Machine
end

section
/-! SUPPORT. The reply on SxRX (R55, R56, R67 to R70): its start, and its characters one by one. -/

namespace Sys2Proof.Machine

/-! ### The start of the reply (R56, R67) -/

/-- R56: a line on which no start bit stands. -/
theorem BitRate.firstStart_none (rate : BitRate) (line : List Bool)
    (h : ∀ t, ¬rate.startBit (line.getD t true) (line.drop (t + 1)) = true) : rate.firstStart line = none :=
  Option.eq_none_iff_forall_not_mem.mpr fun t found => h t ((rate.firstStart_iff line t).mp found).1

/-- R67, R68: a start bit that begins within the window. -/
theorem Engine.startReply_wait {e : Engine} {x : Exchange} {window elapsed : Nat} (c : SegmentConfig)
    (waiting : e.state = .wait window) (inFlight : e.exchange = some x) (inTime : elapsed ≤ window) :
    e.startReply c elapsed = { e.elapse elapsed with
      state := .reply (window - elapsed + c.chars (frameChars (x.kind.replyPayload x.length))) (c.chars 1) [] } := by
  simp [Engine.startReply, waiting, inFlight, inTime]

/-! ### The characters (R69, R70) -/

/-- R70: the header is complete with this byte, and announces more than the longest expected reply. -/
theorem announcesTooMuch_append_iff (x : Exchange) (bytes : List Byte) (b : Byte) :
    announcesTooMuch x (bytes ++ [b]) = true ↔ bytes.length = 3 ∧ x.kind.replyPayload x.length < b.toNat := by
  rcases bytes with - | ⟨b₀, - | ⟨b₁, - | ⟨b₂, - | ⟨b₃, bytes⟩⟩⟩⟩ <;> simp [announcesTooMuch]

/-- R69: the reply has as many characters as its header announces. -/
theorem replyTotal_eq_length_iff (bytes : List Byte) :
    replyTotal bytes = some bytes.length ↔ ∃ n, bytes[3]? = some n ∧ bytes.length = 6 + n.toNat := by
  rcases bytes with - | ⟨b₀, - | ⟨b₁, - | ⟨b₂, - | ⟨b₃, bytes⟩⟩⟩⟩ <;> simp [replyTotal]
  omega

section Characters
variable {e : Engine} {x : Exchange} {deadline next elapsed : Nat} {bytes : List Byte}

/-- R56, R69, R70: a character that ends in time: its stop bit tells whether its byte is taken. -/
theorem Engine.receive_inTime (c : SegmentConfig) (replying : e.state = .reply deadline next bytes)
    (inFlight : e.exchange = some x) (before : elapsed ≤ deadline) (soon : elapsed ≤ next) (b : Byte) (stop : Bool) :
    e.receive c elapsed b stop =
      if stop then (e.elapse elapsed).takeByte c x (deadline - elapsed) (bytes ++ [b])
      else (e.elapse elapsed).complete c (.error .frameError) := by
  simp [Engine.receive, replying, inFlight, before, soon]

theorem Engine.takeByte_longReply (c : SegmentConfig) {received : List Byte} (long : announcesTooMuch x received = true) :
    e.takeByte c x deadline received = e.complete c (.error .longReply) :=
  if_pos long

theorem Engine.takeByte_last (c : SegmentConfig) {received : List Byte} (fits : ¬announcesTooMuch x received = true)
    (last : replyTotal received = some received.length) :
    e.takeByte c x deadline received = e.complete c (judge x received) := by
  rw [Engine.takeByte, if_neg fits, if_pos last]

theorem Engine.takeByte_more (c : SegmentConfig) {received : List Byte} (fits : ¬announcesTooMuch x received = true)
    (more : ¬replyTotal received = some received.length) :
    e.takeByte c x deadline received = { e with state := .reply deadline c.nextCharacter received } := by
  rw [Engine.takeByte, if_neg fits, if_neg more]

end Characters

/-! ### The two commands that carry the line -/

section Line
variable {s : State} {g : Segment}

theorem exec_replyStart (awake : s.part.resetLow = false) {line : List Bool} {e : Engine}
    (h : (s.part.engine g).listen (s.part.control g).config line = e) :
    exec (.replyStart g line) s = .next (s.with (s.part.updateEngine g fun _ => e)) :=
  State.claim_engine (f := fun t e => e.listen (t.control g).config line) awake h

theorem exec_characterReceived (awake : s.part.resetLow = false) {elapsed : Nat} {before : Bool} {line : List Bool}
    {e : Engine} (h : (s.part.engine g).sampleCharacter (s.part.control g).config elapsed before line = e) :
    exec (.characterReceived g elapsed before line) s = .next (s.with (s.part.updateEngine g fun _ => e)) :=
  State.claim_engine (f := fun t e => e.sampleCharacter (t.control g).config elapsed before line) awake h

end Line

/-- Settles O43: the start bit found on the line begins the reply, and each character sampled is taken by its stop bit, the
payload that the header announces, and the number of characters. -/
theorem replyIsReceived : Obligations.ReplyIsReceived := by
  intro g s x awake inFlight e c bit falls longest become
  have unchanged : become e = s := congrArg s.with (s.part.updateEngine_self g)
  refine ⟨fun line => ?_, fun elapsed before line => ?_⟩
  · intro startsAt
    have starts_iff (t : Nat) : c.bitRate.startBit (line.getD t true) (line.drop (t + 1)) = true ↔ startsAt t :=
      c.bitRate.startBit_at line t
    refine ⟨fun none => ?_, fun window t waiting starts first inTime => ?_⟩
    · have idle := Engine.listen_none e c line (c.bitRate.firstStart_none line fun t => mt (starts_iff t).mp (none t))
      exact (exec_replyStart awake idle).trans (congrArg _ unchanged)
    · have found : c.bitRate.firstStart line = some t := (c.bitRate.firstStart_iff line t).mpr
        ⟨(starts_iff t).mpr starts, fun u hu => Bool.eq_false_iff.mpr (mt (starts_iff u).mp (first u hu))⟩
      refine exec_replyStart awake ((Engine.listen_start e c line t found).trans ?_)
      rw [Engine.startReply_wait c waiting inFlight inTime, SegmentConfig.chars, SegmentConfig.chars, Config.charBits,
        frameChars, Nat.mul_comm]
  · intro level stop becomes
    have falls_iff : c.bitRate.startBit before line = true ↔ falls before level := c.bitRate.startBit_iff before line
    refine ⟨fun pulse => ?_, ?_⟩
    · have ignored := Engine.sampleCharacter_pulse e c elapsed before line (Bool.eq_false_iff.mpr (mt falls_iff.mp pulse))
      exact (exec_characterReceived awake ignored).trans (congrArg _ unchanged)
    intro deadline next bytes b replying byDeadline soon starts bits all ends
    have received : e.sampleCharacter c elapsed before line =
        if stop then (e.elapse elapsed).takeByte c x (deadline - elapsed) all
        else (e.elapse elapsed).complete c (.error .frameError) := by
      rw [Engine.sampleCharacter_start e c elapsed before line (falls_iff.mpr starts), c.bitRate.byte_eq line b bits]
      exact Engine.receive_inTime c replying inFlight byDeadline soon b stop
    refine ⟨fun bad => exec_characterReceived awake ?_, fun good long => exec_characterReceived awake ?_,
      fun good short => ?_⟩
    · rw [received, bad]; rfl
    · rw [received, if_pos good, Engine.takeByte_longReply c ((announcesTooMuch_append_iff x bytes b).mpr long)]
    have fits := mt (announcesTooMuch_append_iff x bytes b).mp short
    refine ⟨fun last => exec_characterReceived awake ?_, fun more => exec_characterReceived awake ?_⟩
    · rw [received, if_pos good, Engine.takeByte_last c fits ((replyTotal_eq_length_iff all).mpr last)]
    · have incomplete : ¬replyTotal all = some all.length := fun h =>
        have ⟨n, hn, length⟩ := (replyTotal_eq_length_iff all).mp h
        more n hn length
      rw [received, if_pos good, Engine.takeByte_more c fits incomplete]
      rfl

end Sys2Proof.Machine
end

section
/-! SUPPORT. What the claims on the line do to a Due Queue and to what is in flight (`Engine.Thins`, `Engine.Flows`): they put
no slot into the queue and nothing in flight, and keep the order in which waiting claims are taken (logs 7, 25). -/

namespace Sys2Proof.Machine

/-! ### What is in flight and what is queued -/

/-- R13, R73: a slot is in flight with its exchange, and after it with the outcome that the Table Controller has not taken. -/
theorem Engine.inFlight_iff (e : Engine) (n : Nat) : (e.inFlightKind n).isSome = true ↔
    (∃ x, e.exchange = some x ∧ x.slot = some n) ∨ ∃ o ∈ e.toTable, o.exchange.slot = some n := by
  have waiting : (Engine.inFlightKind.outcomeKind e n).isSome = true ↔ ∃ o ∈ e.toTable, o.exchange.slot = some n := by
    simp [Engine.inFlightKind.outcomeKind]
  constructor
  · unfold Engine.inFlightKind
    split
    · next x hx =>
      split
      · next hn => exact fun _ => Or.inl ⟨x, hx, hn⟩
      · exact fun h => Or.inr (waiting.mp h)
    · exact fun h => Or.inr (waiting.mp h)
  · rintro (⟨x, hx, hn⟩ | ⟨o, ho, hn⟩)
    · exact Engine.inFlightKind_of_exchange hx hn
    · exact Engine.inFlightKind_of_toTable ho hn

theorem Engine.queued_iff (e : Engine) (n : Nat) : e.queued n = true ↔ (∃ q ∈ e.active, q.slot = n) ∨ n ∈ e.held := by
  simp [Engine.queued]

/-- R13, R84: the queue keeps no slot that it did not hold, in the order in which it held them, and nothing comes in flight. -/
structure Engine.Thins (e e' : Engine) : Prop where
  active : e'.active.Sublist e.active
  held : e'.held.Sublist e.held
  flight : ∀ n, (e'.inFlightKind n).isSome = true → (e.inFlightKind n).isSome = true

/-- R26, R73, R79, R96: the order of waiting claims, as a Due Queue rests on it; `done` says that no teardown of the records
waits. -/
structure Engine.Orderly (e : Engine) (done : Prop) : Prop where
  single : ∀ x, e.exchange = some x → x.slot.isSome = true → e.toTable = [] ∧ e.stepsDue = 0 ∧ done
  waiting : e.toTable.length ≤ 1
  onWire : e.exchange.isSome = true → e.state.onWire = true

/-- A claim of the engine that thins its queue and keeps the order of waiting claims. -/
structure Engine.Flows (e e' : Engine) : Prop extends Engine.Thins e e' where
  orderly : ∀ done, e.Orderly done → e'.Orderly done

section Engine
variable {e e' e'' : Engine}

theorem Engine.Thins.refl (e : Engine) : e.Thins e := ⟨.refl _, .refl _, fun _ => id⟩

theorem Engine.Thins.trans (h : e.Thins e') (k : e'.Thins e'') : e.Thins e'' :=
  ⟨k.active.trans h.active, k.held.trans h.held, fun n hn => h.flight n (k.flight n hn)⟩

theorem Engine.Thins.queued (h : e.Thins e') {n : Nat} (hn : e'.queued n = true) : e.queued n = true := by
  rw [Engine.queued_iff] at hn ⊢
  obtain ⟨q, hq, hs⟩ | hn := hn
  · exact Or.inl ⟨q, h.active.subset hq, hs⟩
  · exact Or.inr (h.held.subset hn)

/-- R13: what is in flight follows from the exchange and the outcomes that wait. -/
theorem Engine.Thins.of_eq (active : e'.active = e.active) (held : e'.held = e.held)
    (exchange : ∀ x n, e'.exchange = some x → x.slot = some n → ∃ y, e.exchange = some y ∧ y.slot = some n)
    (toTable : ∀ o ∈ e'.toTable, ∀ n, o.exchange.slot = some n → ∃ o₀ ∈ e.toTable, o₀.exchange.slot = some n) :
    e.Thins e' where
  active := active ▸ .refl _
  held := held ▸ .refl _
  flight := fun n h => by
    rw [Engine.inFlight_iff] at h ⊢
    obtain ⟨x, hx, hn⟩ | ⟨o, ho, hn⟩ := h
    · exact Or.inl (exchange x n hx hn)
    · exact Or.inr (toTable o ho n hn)

theorem Engine.Orderly.idle {done : Prop} (h : e.Orderly done) (hs : e.state.onWire = false) : e.exchange = none := by
  rw [← Option.isNone_iff_eq_none, ← Option.not_isSome]
  simpa [hs] using h.onWire

/-- Without an exchange that serves a record, at most one outcome waits. -/
theorem Engine.Orderly.of_idle {done : Prop} (exchange : e.exchange = none) (waiting : e.toTable.length ≤ 1) :
    e.Orderly done where
  single := fun x hx => by rw [exchange] at hx; cases hx
  waiting := waiting
  onWire := fun hx => by rw [exchange] at hx; cases hx

theorem Engine.Flows.refl (e : Engine) : e.Flows e := ⟨.refl e, fun _ => id⟩

theorem Engine.Flows.trans (h : e.Flows e') (k : e'.Flows e'') : e.Flows e'' :=
  ⟨h.toThins.trans k.toThins, fun done hd => k.orderly done (h.orderly done hd)⟩

/-- A claim that moves the engine on, with its queue, its exchange and what waits as they are. -/
theorem Engine.Flows.of_eq (active : e'.active = e.active) (held : e'.held = e.held) (exchange : e'.exchange = e.exchange)
    (toTable : e'.toTable = e.toTable) (steps : e'.stepsDue = e.stepsDue)
    (onWire : e.exchange.isSome = true → e.state.onWire = true → e'.state.onWire = true) : e.Flows e' where
  toThins := .of_eq active held (fun x _ hx hn => ⟨x, exchange ▸ hx, hn⟩) fun o ho _ hn => ⟨o, toTable ▸ ho, hn⟩
  orderly := fun done h =>
    { single := fun x hx hs => by
        rw [toTable, steps]
        exact h.single x (exchange ▸ hx) hs
      waiting := toTable ▸ h.waiting
      onWire := fun hx => by
        rw [exchange] at hx
        exact onWire hx (h.onWire hx) }

/-- A claim that the engine takes with nothing on the line. -/
theorem Engine.Flows.of_idle (hs : e.state.onWire = false) (active : e'.active = e.active) (held : e'.held = e.held)
    (exchange : e'.exchange = e.exchange) (toTable : e'.toTable = e.toTable) : e.Flows e' where
  toThins := .of_eq active held (fun x _ hx hn => ⟨x, exchange ▸ hx, hn⟩) fun o ho _ hn => ⟨o, toTable ▸ ho, hn⟩
  orderly := fun _ h => .of_idle (exchange.trans (h.idle hs)) (toTable ▸ h.waiting)

/-! ### The claims on the line -/

theorem Engine.Flows.elapse (e : Engine) (t : Nat) : e.Flows (e.elapse t) where
  toThins := .of_eq rfl rfl
    (fun x _ hx hn => by
      obtain ⟨y, hy, rfl⟩ := Option.map_eq_some_iff.mp hx
      exact ⟨y, hy, hn⟩)
    fun o ho _ hn => ⟨o, ho, hn⟩
  orderly := fun _ h =>
    { single := fun x hx hs => by
        obtain ⟨y, hy, rfl⟩ := Option.map_eq_some_iff.mp hx
        exact h.single y hy hs
      waiting := h.waiting
      onWire := fun hx => h.onWire (by simpa [Engine.elapse] using hx) }

/-- R77, R98: a MARK called for. -/
theorem Engine.Flows.callMark (e : Engine) (c : SegmentConfig) : e.Flows (e.callMark c) := by
  unfold Engine.callMark
  split
  · next ready => exact .of_idle (by rw [ready]; rfl) rfl rfl rfl rfl
  · exact .of_eq rfl rfl rfl rfl rfl fun _ => id

/-- R75, R99: the engine is torn down. -/
theorem Engine.Flows.teardown (e : Engine) : e.Flows e.teardown where
  active := List.nil_sublist _
  held := List.nil_sublist _
  flight := fun n h => by
    rw [Engine.inFlight_iff] at h ⊢
    exact h.imp (fun ⟨_, hx, _⟩ => by cases hx) id
  orderly := fun _ h => .of_idle rfl h.waiting

/-- R73: an exchange completes, and its outcome waits alone. -/
theorem Engine.Flows.complete (e : Engine) (c : SegmentConfig) (r : ExchangeResult) : e.Flows (e.complete c r) := by
  rcases hx : e.exchange with _ | x
  · rw [Engine.complete, hx]
    exact .refl e
  rw [Engine.complete_exchange hx]
  refine ⟨⟨.refl _, .refl _, fun n h => ?_⟩, fun done h => .of_idle rfl ?_⟩
  · rw [Engine.inFlight_iff] at h ⊢
    obtain ⟨_, none, -⟩ | ⟨o, ho, hn⟩ := h
    · cases none
    dsimp only at ho
    split at ho
    · exact Or.inr ⟨o, ho, hn⟩
    · obtain ho | ho := List.mem_append.mp ho
      · exact Or.inr ⟨o, ho, hn⟩
      · obtain rfl := List.mem_singleton.mp ho
        exact Or.inl ⟨x, hx, hn⟩
  · dsimp only
    split
    · exact h.waiting
    · next hs =>
      obtain ⟨none, -, -⟩ := h.single x hx (Option.isSome_iff_ne_none.mpr hs)
      simp [none]

/-- R61, R164: a PROBE serves no record. -/
theorem Engine.Flows.startProbe (e : Engine) (c : SegmentConfig) (station : Nat) : e.Flows (e.startProbe c station) where
  toThins := .of_eq rfl rfl (fun x _ hx hn => by cases hx; cases hn) fun o ho _ hn => ⟨o, ho, hn⟩
  orderly := fun _ h =>
    { single := fun x hx hs => by cases hx; cases hs
      waiting := h.waiting
      onWire := fun _ => rfl }

theorem Engine.Flows.endMark (e : Engine) (c : SegmentConfig) : e.Flows (e.endMark c) := by
  unfold Engine.endMark
  split
  · next left _ hx =>
    exact (Engine.Flows.elapse e left).trans (.of_eq rfl rfl rfl rfl rfl fun hs => by simp [Engine.elapse, hx] at hs)
  · exact .refl e

theorem Engine.Flows.endRequest (e : Engine) (c : SegmentConfig) : e.Flows (e.endRequest c) := by
  unfold Engine.endRequest
  split
  · next left _ _ _ => exact (Engine.Flows.elapse e left).trans (.of_eq rfl rfl rfl rfl rfl fun _ _ => rfl)
  · exact .refl e

theorem Engine.Flows.expireWindow (e : Engine) (c : SegmentConfig) : e.Flows (e.expireWindow c) := by
  unfold Engine.expireWindow
  split
  · next left _ => exact (Engine.Flows.elapse e left).trans (.complete _ c _)
  · exact .refl e

theorem Engine.Flows.listen (e : Engine) (c : SegmentConfig) (line : List Bool) : e.Flows (e.listen c line) := by
  unfold Engine.listen
  split
  · next elapsed _ =>
    unfold Engine.startReply
    split
    · split
      · exact (Engine.Flows.elapse e elapsed).trans (.of_eq rfl rfl rfl rfl rfl fun _ _ => rfl)
      · exact .refl e
    · exact .refl e
  · exact .refl e

/-- R69 to R71: a good character. -/
theorem Engine.Flows.takeByte (e : Engine) (c : SegmentConfig) (x : Exchange) (deadline : Nat) (received : List Byte) :
    e.Flows (e.takeByte c x deadline received) := by
  unfold Engine.takeByte
  split
  · exact .complete e c _
  · split
    · exact .complete e c _
    · exact .of_eq rfl rfl rfl rfl rfl fun _ _ => rfl

theorem Engine.Flows.sampleCharacter (e : Engine) (c : SegmentConfig) (elapsed : Nat) (before : Bool) (line : List Bool) :
    e.Flows (e.sampleCharacter c elapsed before line) := by
  unfold Engine.sampleCharacter
  split
  · unfold Engine.receive
    split
    · split
      · split
        · exact (Engine.Flows.elapse e elapsed).trans (.takeByte _ c _ _ _)
        · exact (Engine.Flows.elapse e elapsed).trans (.complete _ c _)
      · exact .refl e
    · exact .refl e
  · exact .refl e

theorem Engine.Flows.expireGap (e : Engine) (c : SegmentConfig) : e.Flows (e.expireGap c) := by
  unfold Engine.expireGap
  split
  · split
    · exact (Engine.Flows.elapse e _).trans (.complete _ c _)
    · exact .refl e
  · exact .refl e

theorem Engine.Flows.expireDeadline (e : Engine) (c : SegmentConfig) : e.Flows (e.expireDeadline c) := by
  unfold Engine.expireDeadline
  split
  · exact (Engine.Flows.elapse e _).trans (.complete _ c _)
  · exact .refl e

/-! ### The claims of the Table Controller and the Station Directory -/

/-- R87: a removal from the Due Queue. -/
theorem Engine.Flows.remove (e : Engine) (test : Nat → Bool) : e.Flows (e.remove test) where
  active := List.filter_sublist
  held := List.filter_sublist
  flight := fun _ => id
  orderly := fun _ h => ⟨h.single, h.waiting, h.onWire⟩

/-- R26: outcomes are taken off what waits for the Table Controller. -/
theorem Engine.Flows.take (e : Engine) {rest : List ExchangeOutcome} (h : rest.Sublist e.toTable) :
    e.Flows { e with toTable := rest } where
  toThins := .of_eq rfl rfl (fun x _ hx hn => ⟨x, hx, hn⟩) fun o ho _ hn => ⟨o, h.subset ho, hn⟩
  orderly := fun _ k =>
    { single := fun x hx hs => by
        obtain ⟨none, steps, done⟩ := k.single x hx hs
        exact ⟨List.sublist_nil.mp (none ▸ h), steps, done⟩
      waiting := h.length_le.trans k.waiting
      onWire := k.onWire }

/-- R168: the outcomes that wait for the Table Controller are changed, but for the exchanges that they are of. -/
theorem Engine.Flows.map (e : Engine) {f : ExchangeOutcome → ExchangeOutcome} (h : ∀ o, (f o).exchange = o.exchange) :
    e.Flows { e with toTable := e.toTable.map f } where
  toThins := .of_eq rfl rfl (fun x _ hx hn => ⟨x, hx, hn⟩) fun o ho _ hn => by
    obtain ⟨o₀, h₀, rfl⟩ := List.mem_map.mp ho
    exact ⟨o₀, h₀, h o₀ ▸ hn⟩
  orderly := fun _ k =>
    { single := fun x hx hs => by simpa using k.single x hx hs
      waiting := by simpa using k.waiting
      onWire := k.onWire }

end Engine

end Sys2Proof.Machine
end

section
/-! SUPPORT. What the claims do to a part whose Due Queues are sound: one lemma for each way in which they touch a queue, a
record, or what is in flight. -/

namespace Sys2Proof.Machine

section Queues
variable {s t : Part}

/-! ### Where a slot stands -/

/-- R13: nothing of the slot is in flight. -/
def Part.Landed (s : Part) (n : Nat) : Prop := ∀ g, (s.engine g).inFlightKind n = none

/-- R13: the slot stands in no Due Queue. -/
def Part.Unqueued (s : Part) (n : Nat) : Prop := ∀ g, (s.engine g).queued n = false

theorem Part.landed_iff (s : Part) (n : Nat) : s.Landed n ↔ ∀ g, ¬((s.engine g).inFlightKind n).isSome = true := by
  simp [Part.Landed]

theorem Part.Landed.thins {n : Nat} (h : s.Landed n) (thins : ∀ g, (s.engine g).Thins (t.engine g)) : t.Landed n := by
  rw [Part.landed_iff] at h ⊢
  exact fun g hf => h g ((thins g).flight n hf)

theorem Part.Unqueued.thins {n : Nat} (h : s.Unqueued n) (thins : ∀ g, (s.engine g).Thins (t.engine g)) :
    t.Unqueued n :=
  fun g => Bool.eq_false_iff.mpr fun hq => by simpa [h g] using (thins g).queued hq

/-- R84: a slot stands in no queue but that of its record's segment. -/
theorem Part.QueuesSound.unqueued (h : s.QueuesSound) {n : Nat} {r : Record} (hr : s.record n = some r)
    (hq : (s.engine r.segment).queued n = false) : s.Unqueued n := by
  refine fun g => Bool.eq_false_iff.mpr fun queued => ?_
  obtain ⟨q, hs, rfl, -⟩ := (h g).entries n queued
  rw [hr, Option.some_inj] at hs
  rw [hs, queued] at hq
  cases hq

/-- R13: nothing of a record is in flight but on its segment. -/
theorem Part.QueuesSound.landed (h : s.QueuesSound) {n : Nat} {r : Record} (hr : s.record n = some r)
    (hf : s.inFlight n r = false) : s.Landed n := by
  refine s.landed_iff n |>.mpr fun g flight => ?_
  obtain ⟨-, q, hs, rfl, -⟩ := (h g).flight n flight
  rw [hr, Option.some_inj] at hs
  rw [Part.inFlight, hs, flight] at hf
  cases hf

/-- R13: a record in flight stands in no queue. -/
theorem Part.QueuesSound.unqueued_of_flight (h : s.QueuesSound) {g : Segment} {n : Nat}
    (hf : ((s.engine g).inFlightKind n).isSome = true) : s.Unqueued n := by
  obtain ⟨hq, r, hr, rfl, -⟩ := (h g).flight n hf
  exact h.unqueued hr hq

/-- R28, R84: a record that may not stand in a queue does not. -/
theorem Part.QueuesSound.unqueued_of_barred (h : s.QueuesSound) {n : Nat} {r : Record} (hr : s.record n = some r)
    (barred : ¬r.mayQueue) : s.Unqueued n := by
  refine fun g => Bool.eq_false_iff.mpr fun queued => ?_
  obtain ⟨q, hq, -, may⟩ := (h g).entries n queued
  rw [hr, Option.some_inj] at hq
  exact barred (hq ▸ may)

/-- R13: nothing of a RETIRED record is in flight. -/
theorem Part.QueuesSound.landed_of_retired (h : s.QueuesSound) {n : Nat} {r : Record} (hr : s.record n = some r)
    (retired : r.state = .retired) : s.Landed n := by
  refine s.landed_iff n |>.mpr fun g flight => ?_
  obtain ⟨-, q, hq, -, live⟩ := (h g).flight n flight
  rw [hr, Option.some_inj] at hq
  exact live (hq ▸ retired)

/-! ### The engine, the controller, the rest -/

theorem Part.QueueSound.orderly {g : Segment} (h : s.QueueSound g) :
    (s.engine g).Orderly ((s.control g).recordTeardowns = []) :=
  ⟨h.single, h.waiting, h.onWire⟩

/-- A claim that thins a queue and leaves the table alone. -/
theorem Part.QueueSound.thins {g : Segment} (h : s.QueueSound g) (records : ∀ n, t.record n = s.record n)
    (thins : (s.engine g).Thins (t.engine g)) (orderly : (t.engine g).Orderly ((t.control g).recordTeardowns = [])) :
    t.QueueSound g where
  distinct := h.distinct.sublist ((thins.active.map _).append thins.held)
  entries := fun n hn => by
    rw [records]
    exact h.entries n (thins.queued hn)
  cancelsFirst := by
    have retiring : t.retiringSlot = s.retiringSlot := funext fun n => by simp [Part.retiringSlot, records]
    rw [retiring]
    exact h.cancelsFirst.sublist thins.held
  flight := fun n hn => by
    obtain ⟨unqueued, live⟩ := h.flight n (thins.flight n hn)
    rw [records]
    exact ⟨Bool.eq_false_iff.mpr fun hq => by simp [thins.queued hq] at unqueued, live⟩
  single := orderly.single
  waiting := orderly.waiting
  onWire := orderly.onWire

/-- A change of the part that no Due Queue speaks of. -/
theorem Part.QueuesSound.congr (h : s.QueuesSound) (records : ∀ n, t.record n = s.record n)
    (engines : ∀ g, t.engine g = s.engine g)
    (teardowns : ∀ g, (t.control g).recordTeardowns = (s.control g).recordTeardowns) : t.QueuesSound :=
  fun g => (h g).thins records (engines g ▸ .refl _) (by rw [engines, teardowns]; exact (h g).orderly)

/-- A change of the ports or the stations. -/
theorem Part.QueuesSound.ports (h : s.QueuesSound) (records : ∀ n, t.record n = s.record n)
    (segs : ∀ g, t.seg g = s.seg g) : t.QueuesSound :=
  h.congr records (fun g => congrArg SegmentUnit.engine (segs g)) fun g =>
    congrArg (fun u => u.control.recordTeardowns) (segs g)

theorem Part.QueuesSound.updatePort (h : s.QueuesSound) (p : Port) (f : PortUnit → PortUnit) :
    (s.updatePort p f).QueuesSound :=
  h.ports (by simp) (by simp)

theorem Part.QueuesSound.setFlags (h : s.QueuesSound) (g : Segment) : (s.setFlags g).QueuesSound :=
  h.ports (by simp) (by simp)

theorem Part.QueuesSound.answer (h : s.QueuesSound) (p : Port) (f : RequestFrame) (a : Status) (l : List Byte) :
    (s.answer p f a l).QueuesSound :=
  h.ports (by simp) (by simp)

theorem Part.QueuesSound.inSlotOrder (h : s.QueuesSound) (u : Part) : (u.inSlotOrder s).QueuesSound :=
  h.ports (by simp) (by simp)

theorem Part.QueuesSound.withStation (h : s.QueuesSound) (g : Segment) (k : Nat) (e : Station) :
    (s.withStation g k e).QueuesSound :=
  h.congr (by simp) (by simp) (by simp)

/-- A claim of a segment's engine. -/
theorem Part.QueuesSound.flows (h : s.QueuesSound) (g : Segment) {f : Engine → Engine}
    (flows : (s.engine g).Flows (f (s.engine g))) : (s.updateEngine g f).QueuesSound := by
  intro k
  have there : (s.engine k).Flows ((s.updateEngine g f).engine k) := by
    rw [Part.updateEngine_engine_eq]
    split
    · next hk => exact hk ▸ flows
    · exact .refl _
  exact (h k).thins (by simp) there.toThins (by simpa using there.orderly _ (h k).orderly)

/-- R87: a removal from the Due Queue. -/
theorem Part.QueuesSound.remove (h : s.QueuesSound) (g : Segment) (test : Nat → Bool) :
    (s.updateEngine g (·.remove test)).QueuesSound :=
  h.flows g (.remove _ test)

/-- R84, R87: a slot taken out of its segment's queue stands in none. -/
theorem Part.QueuesSound.remove_unqueued (h : s.QueuesSound) {n : Nat} {r : Record} (hr : s.record n = some r)
    {test : Nat → Bool} (gone : test n = true) : (s.updateEngine r.segment (·.remove test)).Unqueued n :=
  (h.remove r.segment test).unqueued (r := r) (by simpa using hr) (by simp [Engine.queued_remove, gone])

theorem Part.QueuesSound.dequeue (h : s.QueuesSound) (g : Segment) (n : Nat) : (s.dequeue g n).QueuesSound :=
  h.remove g _

theorem Part.dequeue_thins (s : Part) (g k : Segment) (n : Nat) : (s.engine k).Thins ((s.dequeue g n).engine k) := by
  rw [Part.dequeue, Part.updateEngine_engine_eq]
  split
  · exact (Engine.Flows.remove _ _).toThins
  · exact .refl _

theorem Part.QueuesSound.dequeue_unqueued (h : s.QueuesSound) {n : Nat} {r : Record} (hr : s.record n = some r) :
    (s.dequeue r.segment n).Unqueued n :=
  h.remove_unqueued hr (beq_self_eq_true n)

/-- R26, R79: a change of a segment's controller; a teardown of the records is handed out with no exchange in flight. -/
theorem Part.QueuesSound.updateControl (h : s.QueuesSound) (g : Segment) {f : Control → Control}
    (done : (s.engine g).exchange = none ∨
      ((s.control g).recordTeardowns = [] → (f (s.control g)).recordTeardowns = [])) :
    (s.updateControl g f).QueuesSound := by
  intro k
  refine (h k).thins (by simp) (by simpa using .refl _) ?_
  rw [Part.updateControl_engine, Part.updateControl_control_eq]
  split
  · next hk =>
    subst hk
    obtain idle | done := done
    · exact .of_idle idle (h k).waiting
    · exact { (h k).orderly with single := fun x hx hs => ((h k).single x hx hs).imp id (.imp id done) }
  · exact (h k).orderly

/-! ### The records -/

/-- R13, R28, R50, R84: what a slot may come to hold, by where it stands: a record in a queue stays one that may stand there,
with its place among the owed CANCELs; a record in flight is not RETIRED. -/
structure Part.Suits (s : Part) (n : Nat) (o : Option Record) : Prop where
  queued : ∀ g, (s.engine g).queued n = true → ∀ q, s.record n = some q → q.mayQueue →
    ∃ r, o = some r ∧ r.segment = q.segment ∧ r.mayQueue ∧ (r.state = .retiring ↔ q.state = .retiring)
  flying : ∀ g, ((s.engine g).inFlightKind n).isSome = true → ∀ q, s.record n = some q → q.state ≠ .retired →
    ∃ r, o = some r ∧ r.segment = q.segment ∧ r.state ≠ .retired

/-- The slot stays as it is. -/
theorem Part.Suits.refl (s : Part) (n : Nat) : s.Suits n (s.record n) where
  queued := fun _ _ q hq may => ⟨q, hq, rfl, may, Iff.rfl⟩
  flying := fun _ _ q hq live => ⟨q, hq, rfl, live⟩

/-- R13: a slot that is not queued and not in flight may come to hold anything. -/
theorem Part.Suits.of_idle {n : Nat} (unqueued : s.Unqueued n) (landed : s.Landed n) (o : Option Record) :
    s.Suits n o where
  queued := fun g hg => by rw [unqueued g] at hg; cases hg
  flying := fun g hg => by rw [landed g] at hg; cases hg

/-- R13: a slot that is not queued may come to hold any record of its segment that does not become RETIRED. -/
theorem Part.Suits.of_unqueued {n : Nat} {q r : Record} (hq : s.record n = some q) (unqueued : s.Unqueued n)
    (segment : r.segment = q.segment) (live : q.state ≠ .retired → r.state ≠ .retired) : s.Suits n (some r) where
  queued := fun g hg => by rw [unqueued g] at hg; cases hg
  flying := fun _ _ p hp hl => by
    rw [hq, Option.some_inj] at hp
    exact ⟨r, rfl, hp ▸ segment, live (hp ▸ hl)⟩

/-- A slot's record may change anything but its segment, its kind and its guard phase, and its state from served to served. -/
theorem Part.Suits.of_served {n : Nat} {q r : Record} (hq : s.record n = some q) (segment : r.segment = q.segment)
    (guard : r.kind = q.kind ∧ r.guardPhase = q.guardPhase)
    (state : r.state = q.state ∨ (q.state.served = true ∧ r.state.served = true)) : s.Suits n (some r) where
  queued := fun _ _ p hp may => by
    rw [hq, Option.some_inj] at hp
    subst hp
    refine ⟨r, rfl, segment, ?_, ?_⟩
    · obtain same | ⟨-, served⟩ := state
      · rwa [Record.mayQueue, same, guard.1, guard.2]
      · exact Or.inl served
    · obtain same | ⟨before, after⟩ := state
      · rw [same]
      · constructor <;> intro e <;> simp [e, RecordState.served] at before after
  flying := fun _ _ p hp live => by
    rw [hq, Option.some_inj] at hp
    subst hp
    refine ⟨r, rfl, segment, ?_⟩
    obtain same | ⟨-, after⟩ := state
    · rwa [same]
    · exact fun e => by simp [e, RecordState.served] at after

/-- A change of the table, slot by slot. -/
theorem Part.QueuesSound.table (h : s.QueuesSound) (suits : ∀ n, s.Suits n (t.record n)) (segs : ∀ g, t.seg g = s.seg g) :
    t.QueuesSound := by
  intro g
  have engine : t.engine g = s.engine g := congrArg SegmentUnit.engine (segs g)
  have control : t.control g = s.control g := congrArg SegmentUnit.control (segs g)
  have entry (n : Nat) (hn : (s.engine g).queued n = true) : ∃ q r, s.record n = some q ∧ t.record n = some r ∧
      r.segment = g ∧ r.mayQueue ∧ (r.state = .retiring ↔ q.state = .retiring) := by
    obtain ⟨q, hq, segment, may⟩ := (h g).entries n hn
    obtain ⟨r, hr, same, may', retiring⟩ := (suits n).queued g hn q hq may
    exact ⟨q, r, hq, hr, same.trans segment, may', retiring⟩
  have retiring (n : Nat) (hn : n ∈ (s.engine g).held) : t.retiringSlot n = s.retiringSlot n := by
    obtain ⟨q, r, hq, hr, -, -, iff⟩ := entry n ((Engine.queued_iff _ n).mpr (Or.inr hn))
    rw [Bool.eq_iff_iff]
    simp [Part.retiringSlot, hq, hr, iff]
  exact {
    distinct := engine ▸ (h g).distinct
    entries := fun n hn => by
      obtain ⟨-, r, -, hr, segment, may, -⟩ := entry n (engine ▸ hn)
      exact ⟨r, hr, segment, may⟩
    cancelsFirst := by
      rw [engine]
      refine (h g).cancelsFirst.imp_of_mem fun hm hn first => ?_
      rwa [retiring _ hm, retiring _ hn]
    flight := fun n hn => by
      rw [engine] at hn ⊢
      obtain ⟨unqueued, q, hq, segment, live⟩ := (h g).flight n hn
      obtain ⟨r, hr, same, live'⟩ := (suits n).flying g hn q hq live
      exact ⟨unqueued, r, hr, same.trans segment, live'⟩
    single := by rw [engine, control]; exact (h g).single
    waiting := engine ▸ (h g).waiting
    onWire := engine ▸ (h g).onWire }

/-- A record is put in a slot that it suits. -/
theorem Part.QueuesSound.withRecord (h : s.QueuesSound) {n : Nat} {r : Record} (suits : s.Suits n (some r)) :
    (s.withRecord n r).QueuesSound := by
  refine h.table (fun m => ?_) (by simp)
  by_cases hm : m = n
  · subst hm
    by_cases hlt : m < s.slots.length
    · rwa [Part.withRecord_record s m r hlt]
    · have same : s.withRecord m r = s := by
        simp [Part.withRecord, List.set_eq_of_length_le (Nat.not_lt.mp hlt)]
      rw [same]
      exact .refl s m
  · rw [s.withRecord_record_ne n m r hm]
    exact .refl s m

/-- A record is put back with its reasons. -/
theorem Part.QueuesSound.put (h : s.QueuesSound) {n : Nat} {r : Record} {l : List Reason}
    (suits : s.Suits n (some (r.withReasons l))) : (s.put n r l).QueuesSound := by
  unfold Part.put
  dsimp only
  split
  · exact (h.withRecord suits).updatePort _ _
  · exact h.withRecord suits

/-- R26: a claim on many records. -/
theorem Part.QueuesSound.forRecords (h : s.QueuesSound) {test : Nat → Record → Bool} {f : Nat → Record → Verdict}
    (suits : ∀ n q, s.record n = some q → test n q = true → s.Suits n (some ((f n q).1.withReasons (f n q).2))) :
    (s.forRecords test f).QueuesSound := by
  refine h.table (fun n => ?_) (by simp)
  have same := Part.Suits.refl s n
  rw [Part.forRecords_record]
  rcases hq : s.record n with _ | q <;> rw [hq] at same
  · exact same
  · rw [Option.map_some]
    split
    · next ht => exact suits n q hq ht
    · exact same

/-- R19: a slot of which nothing is queued or in flight becomes FREE. -/
theorem Part.QueuesSound.freeSlot (h : s.QueuesSound) {n : Nat} (unqueued : s.Unqueued n) (landed : s.Landed n) :
    (s.freeSlot n).QueuesSound := by
  refine h.table (fun m => ?_) (by simp)
  by_cases hm : m = n
  · exact hm ▸ .of_idle unqueued landed _
  · rw [s.freeSlot_record_ne n m hm]
    exact .refl s m

/-- R19: a slot with nothing in flight is released. -/
theorem Part.QueuesSound.release (h : s.QueuesSound) {n : Nat} (landed : s.Landed n) : (s.release n).QueuesSound := by
  rcases hr : s.record n with _ | r
  · simpa [Part.release, hr] using h
  rw [Part.release_eq hr]
  have out := (h.dequeue r.segment n).updatePort r.owner fun u => { u with attention := u.attention.filter (· != n) }
  have vacated : (s.vacated n r).QueuesSound := by
    refine out.freeSlot (fun g => ?_) fun g => ?_
    · simpa using h.dequeue_unqueued hr g
    · simpa using landed.thins (s.dequeue_thins r.segment · n) g
  exact Part.forgetUnused_keeps (P := Part.QueuesSound) _ _ (fun _ => vacated.withStation _ _ _)
    (fun _ => Part.QueuesSound.setFlags (vacated.withStation _ _ _) _) vacated

theorem Part.release_thins (s : Part) (n : Nat) (g : Segment) : (s.engine g).Thins ((s.release n).engine g) := by
  rcases hr : s.record n with _ | r
  · simpa [Part.release, hr] using .refl _
  rw [Part.release_eq hr, Part.forgetUnused_engine, Part.vacated_engine]
  split
  · exact (Engine.Flows.remove _ _).toThins
  · exact .refl _

/-- Slots with nothing in flight are released, one after the other. -/
theorem Part.QueuesSound.releases {l : List Nat} (h : s.QueuesSound) (landed : ∀ n ∈ l, s.Landed n) :
    (l.foldl Part.release s).QueuesSound := by
  induction l generalizing s with
  | nil => exact h
  | cons n l ih =>
    exact ih (h.release (landed n List.mem_cons_self)) fun m hm =>
      (landed m (List.mem_cons_of_mem n hm)).thins (s.release_thins n)

/-! ### New entries in a queue (R84 to R86) -/

theorem Engine.queued_iff_mem (e : Engine) (n : Nat) : e.queued n = true ↔ n ∈ e.active.map (·.slot) ++ e.held := by
  simp [Engine.queued_iff]

/-- R84: slots of the segment that are not queued and not in flight join its queue. -/
theorem Part.QueuesSound.enqueue (h : s.QueuesSound) {g : Segment} {f : Engine → Engine} {new : List Nat}
    (nodup : new.Nodup) (unqueued : ∀ n ∈ new, (s.engine g).queued n = false)
    (landed : ∀ n ∈ new, (s.engine g).inFlightKind n = none)
    (may : ∀ n ∈ new, ∃ r, s.record n = some r ∧ r.segment = g ∧ r.mayQueue)
    (slots : ((f (s.engine g)).active.map (·.slot) ++ (f (s.engine g)).held).Perm
      (new ++ ((s.engine g).active.map (·.slot) ++ (s.engine g).held)))
    (cancelsFirst : (f (s.engine g)).held.Pairwise fun m n => s.retiringSlot n = true → s.retiringSlot m = true)
    (flight : ∀ n, (f (s.engine g)).inFlightKind n = (s.engine g).inFlightKind n)
    (orderly : (f (s.engine g)).Orderly ((s.control g).recordTeardowns = [])) :
    (s.updateEngine g f).QueuesSound := by
  intro k
  by_cases hk : k = g
  case neg =>
    exact (h k).thins (by simp) (by rw [Part.updateEngine_engine_ne _ _ _ _ hk]; exact .refl _)
      (by rw [Part.updateEngine_engine_ne _ _ _ _ hk, Part.updateEngine_control]; exact (h k).orderly)
  subst hk
  have queued (m : Nat) : (f (s.engine k)).queued m = true ↔ m ∈ new ∨ (s.engine k).queued m = true := by
    rw [Engine.queued_iff_mem, slots.mem_iff, List.mem_append, ← Engine.queued_iff_mem]
  have retiring : (s.updateEngine k f).retiringSlot = s.retiringSlot := funext fun m => by simp [Part.retiringSlot]
  exact {
    distinct := by
      rw [Part.updateEngine_engine]
      refine slots.nodup_iff.mpr (List.nodup_append.mpr ⟨nodup, (h k).distinct, fun m hm n hn e => ?_⟩)
      have stands := ((s.engine k).queued_iff_mem n).mpr hn
      rw [← e, unqueued m hm] at stands
      cases stands
    entries := fun m hm => by
      rw [Part.updateEngine_engine, queued] at hm
      rw [Part.updateEngine_record]
      exact hm.elim (may m) ((h k).entries m)
    cancelsFirst := by rw [Part.updateEngine_engine, retiring]; exact cancelsFirst
    flight := fun m hm => by
      rw [Part.updateEngine_engine, flight] at hm
      rw [Part.updateEngine_engine, Part.updateEngine_record, Bool.eq_false_iff, ne_eq, queued]
      obtain ⟨out, live⟩ := (h k).flight m hm
      refine ⟨?_, live⟩
      rintro (hn | hq)
      · simp [landed m hn] at hm
      · simp [hq] at out
    single := by rw [Part.updateEngine_engine, Part.updateEngine_control]; exact orderly.single
    waiting := by rw [Part.updateEngine_engine]; exact orderly.waiting
    onWire := by rw [Part.updateEngine_engine]; exact orderly.onWire }

section Placed
variable {n : Nat} {r : Record}

/-- R86: a placement of one record. -/
theorem Part.QueuesSound.placed (h : s.QueuesSound) (unqueued : s.Unqueued n) (landed : s.Landed n)
    (hr : s.record n = some r) (may : r.mayQueue) {f : Engine → Engine}
    (slots : ((f (s.engine r.segment)).active.map (·.slot) ++ (f (s.engine r.segment)).held).Perm
      (n :: ((s.engine r.segment).active.map (·.slot) ++ (s.engine r.segment).held)))
    (cancelsFirst : (f (s.engine r.segment)).held.Pairwise fun m n => s.retiringSlot n = true → s.retiringSlot m = true)
    (same : ∃ active held, f (s.engine r.segment) = { s.engine r.segment with active := active, held := held }) :
    (s.updateEngine r.segment f).QueuesSound := by
  obtain ⟨active, held, same⟩ := same
  refine h.enqueue (new := [n]) (List.nodup_singleton n) ?_ ?_ ?_ slots cancelsFirst (fun m => by rw [same]; rfl) ?_
  · exact fun m hm => List.mem_singleton.mp hm ▸ unqueued _
  · exact fun m hm => List.mem_singleton.mp hm ▸ landed _
  · exact fun m hm => List.mem_singleton.mp hm ▸ ⟨r, hr, rfl, may⟩
  · rw [same]
    exact ⟨(h _).single, (h _).waiting, (h _).onWire⟩

/-- R86: a record that is not RETIRING joins the held part at its tail. -/
theorem Part.QueuesSound.placeCarry (h : s.QueuesSound) (unqueued : s.Unqueued n) (landed : s.Landed n)
    (hr : s.record n = some r) (served : r.state.served = true) : (s.placeCarry r.segment n).QueuesSound := by
  refine h.placed unqueued landed hr (Or.inl served) ?_ ?_ ⟨_, _, rfl⟩
  · rw [← List.append_assoc]
    exact List.perm_append_singleton ..
  · refine List.pairwise_append.mpr ⟨(h r.segment).cancelsFirst, List.pairwise_singleton .., fun m _ k hk retiring => ?_⟩
    rw [List.mem_singleton.mp hk] at retiring
    simp only [Part.retiringSlot, hr, Option.any_some, beq_iff_eq] at retiring
    simp [retiring, RecordState.served] at served

/-- R86: a record goes to the head of the active part. -/
theorem Part.QueuesSound.placeContinue (h : s.QueuesSound) (unqueued : s.Unqueued n) (landed : s.Landed n)
    (hr : s.record n = some r) (served : r.state.served = true) : (s.placeContinue r.segment n).QueuesSound :=
  h.placed unqueued landed hr (Or.inl served) (.refl _) (h r.segment).cancelsFirst ⟨_, _, rfl⟩

/-- R50, R86: an owed CANCEL joins the held part behind the owed CANCELs already there. -/
theorem Part.QueuesSound.placeOwedCancel (h : s.QueuesSound) (unqueued : s.Unqueued n) (landed : s.Landed n)
    (hr : s.record n = some r) (may : r.mayQueue) (retiring : r.state = .retiring) :
    (s.placeOwedCancel r.segment n).QueuesSound := by
  have first := (h r.segment).cancelsFirst
  have split := List.takeWhile_append_dropWhile (p := s.retiringSlot) (l := (s.engine r.segment).held)
  refine h.placed unqueued landed hr may ?_ ?_ ⟨_, _, rfl⟩
  · refine ((List.perm_middle (a := n)).append_left _).trans ?_
    rw [split]
    exact List.perm_middle
  · rw [← split, List.pairwise_append] at first
    obtain ⟨owed, others, -⟩ := first
    have ahead (m : Nat) (hm : m ∈ (s.engine r.segment).held.takeWhile s.retiringSlot) : s.retiringSlot m = true :=
      List.mem_takeWhile_imp hm
    refine List.pairwise_append.mpr ⟨owed, List.pairwise_cons.mpr ⟨fun m _ _ => ?_, others⟩, fun m hm k _ _ => ahead m hm⟩
    simp [Part.retiringSlot, hr, retiring]

end Placed

/-! ### A new exchange in flight (R90) -/

/-- R61, R90: the exchange of a record that is not queued starts, every earlier outcome, step and teardown taken. -/
theorem Part.QueuesSound.startExchange (h : s.QueuesSound) {g : Segment} {n : Nat} {r : Record}
    (unqueued : s.Unqueued n) (hr : s.record n = some r) (segment : r.segment = g) (live : r.state ≠ .retired)
    (toTable : (s.engine g).toTable = []) (steps : (s.engine g).stepsDue = 0) (done : (s.control g).recordTeardowns = [])
    (c : SegmentConfig) (elapsed : Nat) {x : Exchange} (hx : x.slot = some n) (frame : List Byte) :
    (s.updateEngine g fun e => (e.elapse elapsed).startExchange c x frame).QueuesSound := by
  intro k
  by_cases hk : k = g
  case neg =>
    exact (h k).thins (by simp) (by rw [Part.updateEngine_engine_ne _ _ _ _ hk]; exact .refl _)
      (by rw [Part.updateEngine_engine_ne _ _ _ _ hk, Part.updateEngine_control]; exact (h k).orderly)
  subst hk
  have retiring (f : Engine → Engine) : (s.updateEngine k f).retiringSlot = s.retiringSlot :=
    funext fun m => by simp [Part.retiringSlot]
  exact {
    distinct := by rw [Part.updateEngine_engine]; exact (h _).distinct
    entries := fun m hm => by
      rw [Part.updateEngine_engine] at hm
      rw [Part.updateEngine_record]
      exact (h _).entries m hm
    cancelsFirst := by rw [Part.updateEngine_engine, retiring]; exact (h _).cancelsFirst
    flight := fun m hm => by
      rw [Part.updateEngine_engine, Engine.inFlight_iff] at hm
      rw [Part.updateEngine_engine, Part.updateEngine_record]
      obtain ⟨y, hy, hm⟩ | ⟨o, ho, -⟩ := hm
      · cases hy
        rw [hx, Option.some_inj] at hm
        subst hm
        exact ⟨unqueued _, r, hr, segment, live⟩
      · exact absurd (toTable ▸ ho) List.not_mem_nil
    single := fun _ _ _ => by
      rw [Part.updateEngine_engine, Part.updateEngine_control]
      exact ⟨toTable, steps, done⟩
    waiting := by rw [Part.updateEngine_engine]; exact (h _).waiting
    onWire := fun _ => by rw [Part.updateEngine_engine]; rfl }

end Queues

end Sys2Proof.Machine
end

section
/-! SUPPORT. The claims on records, stations and segments keep the Due Queues sound. -/

namespace Sys2Proof.Machine

/-! ### Reasons, and claims that meet no other -/

@[simp] theorem Record.withReasons_state (r : Record) (l : List Reason) : (r.withReasons l).state = r.state := by
  rw [Record.withReasons_eq]

@[simp] theorem Record.withReasons_segment (r : Record) (l : List Reason) : (r.withReasons l).segment = r.segment := by
  rw [Record.withReasons_eq]

@[simp] theorem Record.withReasons_kind (r : Record) (l : List Reason) : (r.withReasons l).kind = r.kind := by
  rw [Record.withReasons_eq]

@[simp] theorem Record.withReasons_guardPhase (r : Record) (l : List Reason) :
    (r.withReasons l).guardPhase = r.guardPhase := by
  rw [Record.withReasons_eq]

/-- A record of the same fixed fields is of the same segment. -/
theorem Record.segment_of_fixed {q r : Record} (h : r.fixed = q.fixed) : r.segment = q.segment := by
  obtain ⟨-, -, -, segment, -, -, -⟩ := (Record.fixed_eq_iff r q).mp h
  exact segment

/-- A record of the same fixed fields is of the same kind. -/
theorem Record.kind_of_fixed {q r : Record} (h : r.fixed = q.fixed) : r.kind = q.kind := by
  obtain ⟨-, -, kind, -, -, -, -⟩ := (Record.fixed_eq_iff r q).mp h
  exact kind

/-- A claim on many records and a claim on an engine, in either order. -/
theorem Part.forRecords_updateEngine (s : Part) (test : Nat → Record → Bool) (f : Nat → Record → Verdict) (g : Segment)
    (k : Engine → Engine) : (s.forRecords test f).updateEngine g k = (s.updateEngine g k).forRecords test f := by
  cases g <;> rfl

/-- A change of a record and a claim on an engine, in either order. -/
theorem Part.withRecord_updateEngine (s : Part) (n : Nat) (r : Record) (g : Segment) (k : Engine → Engine) :
    (s.withRecord n r).updateEngine g k = (s.updateEngine g k).withRecord n r := by
  cases g <;> rfl

/-- A change of a controller and a claim on an engine, in either order. -/
theorem Part.updateControl_updateEngine (s : Part) (g : Segment) (f : Control → Control) (k : Engine → Engine) :
    (s.updateControl g f).updateEngine g k = (s.updateEngine g k).updateControl g f := by
  cases g <;> rfl

/-- A change of the segment's flags and a claim on an engine, in either order. -/
theorem Part.setFlags_updateEngine (s : Part) (g : Segment) (k : Engine → Engine) :
    (s.setFlags g).updateEngine g k = (s.updateEngine g k).setFlags g := by
  cases g <;> rfl

section Claims
variable {s t : Part}

/-! ### Departure and return of a station (chapter 7) -/

/-- R145: a departure retires no record but those that owe a queued CANCEL. -/
theorem departureVerdict_live {e : Engine} {n : Nat} (unqueued : e.queued n = false) (c : Condition) {r : Record}
    (live : r.state ≠ .retired) : (departureVerdict e c n r).1.state ≠ .retired := by
  unfold departureVerdict
  split
  case h_6 =>
    rw [if_neg (by simp [unqueued])]
    exact live
  all_goals simp_all

/-- R87, R145: the records of a station that leaves PRESENT leave the queue. -/
theorem Part.QueuesSound.departRecords (h : s.QueuesSound) (g : Segment) (k : Nat) (c : Condition) :
    (s.departRecords g k c).QueuesSound := by
  rw [Part.departRecords, Part.forRecords_updateEngine]
  refine (h.remove g _).forRecords fun n q hq ht => ?_
  rw [Part.updateEngine_record] at hq
  obtain ⟨rfl, -⟩ : q.segment = g ∧ q.station = k := by simpa [Record.onStation] using ht
  have unqueued := h.remove_unqueued (test := fun n => (s.record n).any fun r => r.onStation q.segment k) hq
    (by simpa [hq] using ht)
  by_cases queued : (s.engine q.segment).queued n = true
  · refine .of_idle unqueued (Part.Landed.thins ((s.landed_iff n).mpr fun g flight => ?_) fun g => ?_) _
    · rw [h.unqueued_of_flight flight q.segment] at queued
      cases queued
    · rw [Part.updateEngine_engine_eq]
      split
      · exact (Engine.Flows.remove _ _).toThins
      · exact .refl _
  · have out := Bool.eq_false_iff.mpr queued
    refine .of_unqueued (q := q) (by simpa using hq) unqueued ?_ ?_
    · simpa using Record.segment_of_fixed (departureVerdict_fixed (s.engine q.segment) c n q)
    · simpa using departureVerdict_live out c

/-- R148: the comparison of an attach halts a record, or leaves its state and its guarded write. -/
theorem attachVerdict_state (i : Identity) (notice : Bool) (n : Nat) (r : Record) :
    (attachVerdict i notice n r).1.guardPhase = r.guardPhase ∧
      ((attachVerdict i notice n r).1.state = .halted ∧ r.state ≠ .retired ∨
        (attachVerdict i notice n r).1.state = r.state) := by
  have cleared : (if r.kind.outputClass then { r with sequenceBit := false, missed := false } else r).guardPhase =
      r.guardPhase ∧ (if r.kind.outputClass then { r with sequenceBit := false, missed := false } else r).state =
        r.state := by
    split <;> exact ⟨rfl, rfl⟩
  obtain ⟨phase, state⟩ := cleared
  unfold attachVerdict
  dsimp only
  split
  case h_1 hs | h_2 hs | h_3 hs =>
    split
    · exact ⟨phase, Or.inl ⟨rfl, by simp [hs]⟩⟩
    · exact ⟨phase, Or.inr state⟩
  case h_4 hs =>
    split
    · exact ⟨phase, Or.inr state⟩
    · exact ⟨phase, Or.inr state⟩
  all_goals exact ⟨rfl, Or.inr rfl⟩

/-- R31, R87, R148: the records that an attach halts leave the queue. -/
theorem Part.QueuesSound.attach (h : s.QueuesSound) (g : Segment) (k : Nat) (i : Identity) (notice : Bool) :
    (s.attach g k i notice).QueuesSound := by
  have entered := h.withStation g k ⟨.present, some i, 0⟩
  unfold Part.attach Part.dequeueHalted
  dsimp only
  rw [Part.forRecords_updateEngine]
  refine Part.QueuesSound.setFlags ((entered.remove g _).forRecords fun n q hq ht => ?_) g
  obtain ⟨phase, state⟩ := attachVerdict_state i notice n q
  have fixed := attachVerdict_fixed i notice n q
  obtain ⟨halts, live⟩ | same := state
  · have hq' : (s.withStation g k ⟨.present, some i, 0⟩).record n = some q := by simpa using hq
    obtain ⟨rfl, -⟩ : q.segment = g ∧ q.station = k := by simpa [Record.onStation] using ht
    refine .of_unqueued hq (entered.remove_unqueued hq' ?_) (by simpa using Record.segment_of_fixed fixed)
      (by simp [halts])
    rw [Part.forRecords_record, hq', Option.map_some, if_pos ht]
    simp [halts, Record.segment_of_fixed fixed]
  · exact .of_served hq (by simpa using Record.segment_of_fixed fixed)
      (by simpa using ⟨Record.kind_of_fixed fixed, phase⟩) (Or.inl (by simpa using same))

theorem Part.QueuesSound.silenceStation (h : s.QueuesSound) (g : Segment) (k : Nat) (e : Station) (count : Nat) :
    (s.silenceStation g k e count).QueuesSound :=
  Part.QueuesSound.setFlags ((h.withStation g k _).departRecords g k _) g

/-- R143 to R149: the Station Directory takes an outcome. -/
theorem Part.QueuesSound.stationTakes (h : s.QueuesSound) (g : Segment) (o : ExchangeOutcome) :
    (s.stationTakes g o).QueuesSound := by
  unfold Part.stationTakes
  split
  · unfold Part.probeResult
    split
    · split
      · exact h.attach g _ _ _
      · exact h.attach g _ _ _
      · exact h
      · exact h
    · exact h
  · unfold Part.stationResult
    split
    · exact h
    · split
      · dsimp only
        split
        · exact h.silenceStation g _ _ _
        · exact h.withStation g _ _
      · exact h

/-- A claim on the records of a station that changes their conditions alone. -/
theorem Part.QueuesSound.tellRecords (h : s.QueuesSound) (test : Nat → Record → Bool) {f : Nat → Record → Verdict}
    (fixed : ∀ n r, (f n r).1.fixed = r.fixed) (phase : ∀ n r, (f n r).1.guardPhase = r.guardPhase)
    (state : ∀ n r, (f n r).1.state = r.state ∨ (r.state.served = true ∧ (f n r).1.state.served = true)) :
    (s.forRecords test f).QueuesSound :=
  h.forRecords fun n q hq _ => .of_served hq (by simpa using Record.segment_of_fixed (fixed n q))
    (by simpa using ⟨Record.kind_of_fixed (fixed n q), phase n q⟩) (by simpa using state n q)

/-- R151: an accepted STATION_BAR. -/
theorem Part.QueuesSound.barStation (h : s.QueuesSound) (g : Segment) (k : Nat) (e : Station) :
    (s.barStation g k e).QueuesSound := by
  have entered := h.withStation g k ⟨.barred, e.identity, 0⟩
  have told := Part.QueuesSound.setFlags (entered.tellRecords (fun _ r => r.onStation g k) barVerdict_fixed
    (fun n r => by unfold barVerdict; split <;> rfl)
    (fun n r => Or.inl (by unfold barVerdict; split <;> rfl))) g
  unfold Part.barStation
  dsimp only
  split
  · exact Part.QueuesSound.setFlags (entered.departRecords g k _) g
  · exact told
  · exact told
  · exact h

/-- R153: an accepted STATION_UNBAR. -/
theorem Part.QueuesSound.unbarStation (h : s.QueuesSound) (g : Segment) (k : Nat) (e : Station) :
    (s.unbarStation g k e).QueuesSound := by
  have kept (n : Nat) (r : Record) : (unbarVerdict n r).1.guardPhase = r.guardPhase ∧
      (unbarVerdict n r).1.state = r.state := by
    unfold unbarVerdict
    split
    case h_1 | h_2 =>
      dsimp only
      split <;> exact ⟨rfl, rfl⟩
    all_goals exact ⟨rfl, rfl⟩
  exact Part.QueuesSound.setFlags ((h.withStation g k _).tellRecords _ unbarVerdict_fixed (fun n r => (kept n r).1)
    fun n r => Or.inl (kept n r).2) g

/-! ### The requests on a record (chapter 2) -/

/-- R43: the identity that an AMEND sets is compared. -/
theorem Part.QueuesSound.amendRecord (h : s.QueuesSound) {n : Nat} {r : Record} (hr : s.record n = some r)
    (a : AmendArgs) : (s.amendRecord n r a).QueuesSound := by
  unfold Part.amendRecord
  dsimp only
  split
  · split
    · refine (h.dequeue r.segment n).put (.of_unqueued (q := r) (by simpa using hr) (h.dequeue_unqueued hr) ?_ ?_)
      · simp [AmendArgs.apply]
      · simp
    · exact h.withRecord (.of_served hr rfl ⟨rfl, rfl⟩ (Or.inl rfl))
  · exact h.withRecord (.of_served hr rfl ⟨rfl, rfl⟩ (Or.inl rfl))

theorem Part.QueuesSound.ownAmend (h : s.QueuesSound) (p : Port) (f : RequestFrame) : (s.ownAmend p f).1.QueuesSound := by
  refine Part.onOwned_keeps (P := Part.QueuesSound) h fun n r hb => ?_
  split
  · exact h
  · split
    · exact h
    · split
      · exact h
      · exact h.amendRecord hb.2.1 _

theorem Part.QueuesSound.ownWrite (h : s.QueuesSound) (p : Port) (f : RequestFrame) : (s.ownWrite p f).1.QueuesSound := by
  refine Part.onOwned_keeps (P := Part.QueuesSound) h fun n r hb => ?_
  split
  · exact h
  · split
    · exact h
    · exact h.withRecord (.of_served hb.2.1 rfl ⟨rfl, rfl⟩ (Or.inl rfl))

/-- R46, R47: RESUME and RESTART return a HALTED record, which stands in no queue, to PENDING. -/
theorem Part.QueuesSound.ownReturn (h : s.QueuesSound) (p : Port) (f : RequestFrame) {after : Record → Record}
    (segment : ∀ r, (after r).segment = r.segment) (state : ∀ r, (after r).state = r.state) :
    (s.ownReturn p f after).1.QueuesSound := by
  refine Part.onOwned_keeps (P := Part.QueuesSound) h fun n r hb => ?_
  split
  · exact h
  · next halted =>
    split
    · exact h
    · have out := h.unqueued_of_barred hb.2.1 (by simp [Record.mayQueue, not_not.mp halted, RecordState.served])
      exact h.withRecord (.of_unqueued hb.2.1 out (segment _) fun _ => by simp [state, Part.resumed])

/-- R50, R136: an owed CANCEL of a record that is not queued and not in flight. -/
theorem Part.QueuesSound.oweCancel (h : s.QueuesSound) {n : Nat} {r : Record} (hr : s.record n = some r)
    (unqueued : s.Unqueued n) (landed : s.Landed n) (guarded : r.kind = .guarded) : (s.oweCancel n r).QueuesSound := by
  let owing : Record := { r with state := .retiring, guardPhase := .cancel }
  have placed := (h.withRecord (r := owing) (.of_idle unqueued landed _)).placeOwedCancel (n := n) (r := owing)
    (fun g => by simpa using unqueued g) (fun g => by simpa using landed g)
    (Part.withRecord_record s n owing (Part.record_lt hr)) (Or.inr ⟨rfl, guarded, rfl⟩) rfl
  exact placed

/-- R49: an accepted RETIRE. -/
theorem Part.QueuesSound.retireRecord (h : s.QueuesSound) {n : Nat} {r : Record} (hr : s.record n = some r) :
    (s.retireRecord n r).1.QueuesSound := by
  have out := h.dequeue r.segment n
  have hr' : (s.dequeue r.segment n).record n = some r := by simpa using hr
  have unqueued := h.dequeue_unqueued hr
  unfold Part.retireRecord
  dsimp only
  split
  · exact out.withRecord (.of_unqueued hr' unqueued rfl (by simp))
  · next flight =>
    have landed := (h.landed hr (Bool.eq_false_iff.mpr flight)).thins (s.dequeue_thins r.segment · n)
    split
    · next owed =>
      split
      · exact out.oweCancel hr' unqueued landed (Record.guarded_of_cancelOwed owed)
      · exact out.put (.of_idle unqueued landed _)
    · exact out.put (.of_idle unqueued landed _)

theorem Part.QueuesSound.ownRetire (h : s.QueuesSound) (p : Port) (f : RequestFrame) :
    (s.ownRetire p f).1.QueuesSound := by
  refine Part.onOwned_keeps (P := Part.QueuesSound) h fun n r hb => ?_
  split
  · exact h.retireRecord hb.2.1
  · exact h

/-- R52: a purged record with an exchange in flight. -/
theorem Part.QueuesSound.silence (h : s.QueuesSound) (n : Nat) : (s.silence n).QueuesSound := by
  rcases hr : s.record n with _ | r
  · simpa [Part.silence, hr] using h
  rw [Part.silence_eq hr]
  exact ((h.dequeue r.segment n).withRecord (r := r.purged) (.of_unqueued (q := r) (by simpa using hr)
    (h.dequeue_unqueued hr) rfl (by simp [Record.purged]))).updatePort _ _

/-- R52: PURGE silences the records in flight, and frees those of which nothing is. -/
theorem Part.QueuesSound.ownPurge (h : s.QueuesSound) (p : Port) : (s.ownPurge p).1.QueuesSound := by
  have silenced : (s.purgeSilence p).QueuesSound :=
    List.foldlRecOn (motive := Part.QueuesSound) _ _ h fun _ hu n _ => hu.silence n
  refine silenced.releases fun n hn => ?_
  obtain ⟨r, hr, -, flight⟩ := (s.mem_purgeFreed p n).mp hn
  refine (h.landed hr flight).thins fun g => ?_
  rw [(s.purgeSilence_silences p).engines g]
  exact (Engine.Flows.remove _ _).toThins

/-- R177, R178: TAKE_ATTENTION. -/
theorem Part.QueuesSound.ownNotice (h : s.QueuesSound) (p : Port) : (s.ownNotice p).1.QueuesSound := by
  unfold Part.ownNotice
  split
  · exact h
  · next n rest _ =>
    have taken := h.updatePort p fun u => { u with attention := rest }
    dsimp only
    split
    · exact taken
    · next r hr =>
      have emptied := taken.withRecord (n := n) (r := { r with reasons := .empty })
        (.of_served (q := r) (by simpa using hr) rfl ⟨rfl, rfl⟩ (Or.inl rfl))
      dsimp only
      split
      · next retired =>
        exact emptied.release (emptied.landed_of_retired
          (Part.withRecord_record _ _ _ (by simpa using Part.record_lt hr)) retired)
      · exact emptied

/-- R39: the record that INSERT creates stands in a slot of which nothing is queued or in flight. -/
theorem Part.QueuesSound.ownInsert (h : s.QueuesSound) (p : Port) (f : RequestFrame) :
    (s.ownInsert p f).1.QueuesSound := by
  rcases s.ownInsert_cases p f with e | ⟨a, kind, g, n, inserts, e⟩ <;> rw [e]
  · exact h
  have free := (Part.lowestFree_some inserts.slot).2
  refine h.withRecord (.of_idle (fun k => Bool.eq_false_iff.mpr fun queued => ?_) ((s.landed_iff n).mpr fun k flight => ?_) _)
  · obtain ⟨r, hr, -⟩ := (h k).entries n queued
    rw [free] at hr
    cases hr
  · obtain ⟨-, r, hr, -⟩ := (h k).flight n flight
    rw [free] at hr
    cases hr

/-! ### Outcomes (R102) -/

/-- R86: a record that is placed after its outcome is served as it was. -/
theorem Record.served_placed (r : Record) (k : ExchangeKind) (result : ExchangeResult) :
    (r.served k result).placement = .done ∨ (r.served k result).record.state = r.state := by
  have error (e : RecordError) : (r.onError e).placement = .done ∨ (r.onError e).record.state = r.state := by
    unfold Record.onError
    dsimp only
    split
    · exact Or.inl rfl
    · exact Or.inr rfl
  have failure : (r.failure result).placement = .done ∨ (r.failure result).record.state = r.state := by
    unfold Record.failure
    split
    case h_1 | h_3 => exact Or.inr rfl
    case h_2 => exact Or.inl rfl
    all_goals exact error _
  unfold Record.served Record.success
  split
  case h_1 | h_2 | h_5 => exact Or.inl rfl
  case h_3 | h_6 | h_7 => exact Or.inr rfl
  case h_4 =>
    rw [Option.getD_some]
    split
    · exact Or.inr rfl
    · exact Or.inl rfl
  case h_8 => exact failure

section Outcome
variable {n : Nat} {r : Record}

/-- R33, R50, R137: the outcome of a RETIRING record, nothing of which is queued or in flight any more. -/
theorem Part.QueuesSound.retiringOutcome (h : s.QueuesSound) (hr : s.record n = some r) (unqueued : s.Unqueued n)
    (landed : s.Landed n) (o : ExchangeOutcome) (present torn : Bool) :
    (s.retiringOutcome n r o present torn).QueuesSound := by
  have put (q : Record) (l : List Reason) : (s.put n q l).QueuesSound := h.put (.of_idle unqueued landed _)
  unfold Part.retiringOutcome
  split
  · exact h.release landed
  · split
    · split <;> exact put _ _
    · split
      · next owed =>
        split
        · exact h.withRecord (.of_idle unqueued landed _)
        · split
          · exact h.oweCancel hr unqueued landed (Record.guarded_of_cancelOwed owed)
          · exact put _ _
      · exact put _ _

/-- R86: a placement of a served record. -/
theorem Part.QueuesSound.place (h : s.QueuesSound) (hr : s.record n = some r) (unqueued : s.Unqueued n)
    (landed : s.Landed n) {p : Placement} (served : p = .done ∨ r.state.served = true) :
    (s.place r.segment n p).QueuesSound := by
  unfold Part.place
  split
  · split
    · exact h
    · exact h.placeContinue unqueued landed hr (served.resolve_left nofun)
    · exact h.placeCarry unqueued landed hr (served.resolve_left nofun)
  · exact h

/-- R102: the outcome on the record that it served, nothing of which is queued or in flight any more. -/
theorem Part.QueuesSound.outcomeOn (h : s.QueuesSound) (hr : s.record n = some r) (unqueued : s.Unqueued n)
    (landed : s.Landed n) (o : ExchangeOutcome) (present torn : Bool) :
    (s.outcomeOn n r o present torn).QueuesSound := by
  have put (q : Record) (l : List Reason) : (s.put n q l).QueuesSound := h.put (.of_idle unqueued landed _)
  have served (hs : r.state.served = true) :
      ((s.put n (r.served o.exchange.kind o.result).record (r.served o.exchange.kind o.result).reasons).place r.segment n
        (r.served o.exchange.kind o.result).placement).QueuesSound := by
    rw [← Record.segment_of_fixed (r.served_fixed o.exchange.kind o.result), ← Record.withReasons_segment]
    refine (put _ _).place (Part.put_record s n _ _ (Part.record_lt hr)) (fun g => ?_) (fun g => ?_) ?_
    · simpa [Part.engine] using unqueued g
    · simpa [Part.engine] using landed g
    · exact (r.served_placed ..).imp id fun same => by simpa [same] using hs
  unfold Part.outcomeOn
  dsimp only
  split
  case h_1 => exact h.retiringOutcome hr unqueued landed o present torn
  case h_2 => exact h
  case h_3 =>
    split
    · exact h
    · exact put _ _
  case h_4 hs | h_5 hs | h_6 hs =>
    split
    · exact h
    · split
      · exact put _ _
      · exact served (by rw [hs]; rfl)

end Outcome

/-- R73: an outcome waits alone. -/
theorem Part.QueuesSound.alone (h : s.QueuesSound) {g : Segment} {o : ExchangeOutcome} {rest : List ExchangeOutcome}
    (first : (s.engine g).toTable = o :: rest) : rest = [] := by
  have waiting := (h g).waiting
  rw [first, List.length_cons] at waiting
  exact List.eq_nil_of_length_eq_zero (by omega)

/-- R26, R73: the outcome that waits is taken, and nothing of its slot is queued or in flight once it is taken. -/
theorem Part.QueuesSound.takeOutcome (h : s.QueuesSound) {g : Segment} {o : ExchangeOutcome} {rest : List ExchangeOutcome}
    (first : (s.engine g).toTable = o :: rest) (torn : Bool) :
    ((s.updateEngine g fun e => { e with toTable := rest }).takeOutcome o torn).QueuesSound := by
  have taken : (s.updateEngine g fun e => { e with toTable := rest }).QueuesSound :=
    h.flows g (.take _ (first ▸ List.sublist_cons_self o rest))
  obtain rfl := h.alone first
  unfold Part.takeOutcome
  split
  · exact taken
  · next n hn =>
    split
    · exact taken
    · next r hr =>
      have flight := Engine.inFlightKind_of_toTable (first ▸ List.mem_cons_self) hn
      obtain ⟨-, q, hq, segment, -⟩ := (h g).flight n flight
      obtain rfl : q = r := by simpa [hq] using hr
      have unqueued : (s.updateEngine g fun e => { e with toTable := [] }).Unqueued n :=
        taken.unqueued hr (by
          rw [segment, Part.updateEngine_engine]
          exact h.unqueued_of_flight flight g)
      refine taken.outcomeOn hr unqueued (taken.landed hr (Bool.eq_false_iff.mpr fun again => ?_)) o _ torn
      rw [Part.inFlight, segment, Part.updateEngine_engine, Engine.inFlight_iff] at again
      obtain ⟨x, hx, hs⟩ | ⟨_, ho, -⟩ := again
      · obtain ⟨none, -⟩ := (h g).single x hx (by simp [hs])
        rw [first] at none
        cases none
      · cases ho

theorem Part.QueuesSound.nextOutcome (h : s.QueuesSound) (g : Segment) : (s.nextOutcome g).QueuesSound := by
  unfold Part.nextOutcome
  split
  · exact h
  · next first => exact h.takeOutcome first false

theorem Part.QueuesSound.nextStationOutcome (h : s.QueuesSound) (g : Segment) (probe : Bool) :
    (s.nextStationOutcome g probe).QueuesSound := by
  unfold Part.nextStationOutcome
  split
  · exact h
  · split
    · exact (h.flows g (.of_eq (by rfl) (by rfl) (by rfl) (by rfl) (by rfl) fun _ => id)).stationTakes g _
    · exact h

/-! ### The teardown (R99, R168 to R170) -/

/-- R99, R168: the teardown of a segment is handed out, its engine torn down. -/
theorem Part.QueuesSound.tearDown (h : s.QueuesSound) (g : Segment) (new : SegmentState) :
    (s.tearDown g new).QueuesSound := by
  unfold Part.tearDown Part.enterState
  dsimp only
  rw [Part.setFlags_updateEngine, Part.updateControl_updateEngine, Part.updateControl_updateEngine]
  have torn := h.flows g (.teardown _)
  refine Part.QueuesSound.setFlags (.updateControl (torn.updateControl g (Or.inl ?_)) g (Or.inr id)) g
  rw [Part.updateEngine_engine]
  rfl

/-- R169: the outcomes that wait for the Station Directory are taken. -/
theorem Part.QueuesSound.stationBacklog (h : s.QueuesSound) (g : Segment) : (s.stationBacklog g).QueuesSound := by
  have taken := h.flows g (f := fun e => { e with toStations := [] }) (.of_eq rfl rfl rfl rfl rfl fun _ => id)
  exact Part.QueuesSound.inSlotOrder
    (List.foldlRecOn (motive := Part.QueuesSound) _ _ taken fun _ hu o _ => hu.stationTakes g o) s

/-- R168: the outcomes that the Table Controller has not taken keep their stations' standing. -/
theorem Part.QueuesSound.holdStanding (h : s.QueuesSound) (g : Segment) : (s.holdStanding g).QueuesSound := by
  unfold Part.holdStanding
  exact h.flows g (.map _ fun _ => rfl)

/-- R169: the stations of the segment at the teardown. -/
theorem Part.QueuesSound.tearStations (h : s.QueuesSound) (g : Segment) : (s.tearStations g).QueuesSound := by
  have torn := h.congr
    (t := s.withSeg g { s.seg g with
      stations := (s.seg g).stations.mapIdx fun i e => tornStation (s.refCount g (i + 1) != 0) e })
    (by simp) (s.withStations_engine g · _) fun k => by rw [s.withStations_control g k]
  unfold Part.tearStations
  dsimp only
  split
  · exact torn.setFlags g
  · exact torn

/-- R168, R169: the Station Directory's part of a teardown. -/
theorem Part.QueuesSound.stationTeardown (h : s.QueuesSound) (g : Segment) : (s.stationTeardown g).QueuesSound := by
  unfold Part.stationTeardown
  split
  · exact h
  · next k _ =>
    have handed := h.updateControl g (f := fun c => { c with stationTeardowns := k }) (Or.inr id)
    exact ((handed.stationBacklog g).holdStanding g).tearStations g

/-- R170: the records of the segment at the teardown, none of which is in flight. -/
theorem Part.QueuesSound.tearRecords (h : s.QueuesSound) (g : Segment) (x : Option Exchange)
    (landed : ∀ n, (s.engine g).inFlightKind n = none) : (s.tearRecords g x).QueuesSound := by
  have emptied : (s.updateEngine g fun e => { e with active := [], held := [] }).QueuesSound :=
    h.flows g ⟨⟨List.nil_sublist _, List.nil_sublist _, fun _ => id⟩, fun _ o => ⟨o.single, o.waiting, o.onWire⟩⟩
  have idle {n : Nat} {r : Record} (hr : s.record n = some r) (segment : r.segment = g) :
      (s.updateEngine g fun e => { e with active := [], held := [] }).Unqueued n ∧
        (s.updateEngine g fun e => { e with active := [], held := [] }).Landed n := by
    subst segment
    refine ⟨emptied.unqueued (r := r) (by simpa using hr) ?_, emptied.landed (r := r) (by simpa using hr) ?_⟩
    · rw [Part.updateEngine_engine]
      rfl
    · rw [Part.inFlight, Part.updateEngine_engine]
      exact congrArg Option.isSome (landed n)
  unfold Part.tearRecords
  dsimp only
  rw [Part.forRecords_updateEngine]
  refine (emptied.forRecords fun n q hq ht => ?_).releases fun n hn => ?_
  · obtain ⟨unqueued, landed⟩ := idle (by simpa using hq) (beq_iff_eq.mp ht)
    exact .of_idle unqueued landed _
  · obtain ⟨r, hr, ht⟩ := (s.mem_slotsWhere _ n).mp hn
    simp only [Bool.and_eq_true, beq_iff_eq] at ht
    obtain ⟨⟨segment, -⟩, -⟩ := ht
    intro k
    simpa using (idle hr segment).2 k

/-- R168: the outcome that waits is taken ahead of the teardown. -/
theorem Part.QueuesSound.recordBacklog (h : s.QueuesSound) (g : Segment) : (s.recordBacklog g).QueuesSound := by
  unfold Part.recordBacklog
  rcases first : (s.engine g).toTable with _ | ⟨o, rest⟩
  · exact h.flows g (.take _ (List.nil_sublist _))
  · obtain rfl := h.alone first
    exact h.takeOutcome first true

/-- R168: taking the outcomes that wait leaves the exchange in flight as it is. -/
theorem Part.recordBacklog_engine (s : Part) (g : Segment) : ∃ active held,
    (s.recordBacklog g).engine g = { s.engine g with active := active, held := held, toTable := [] } := by
  have acts : Part.Acts False (fun _ => False) (s.updateEngine g fun e => { e with toTable := [] }) (s.recordBacklog g) :=
    (Part.Acts.refl _ _ _).foldl _ fun _ _ _ hu => hu.takeOutcome False.elim true
  obtain ⟨active, held, same⟩ := acts.queues g
  rw [Part.updateEngine_engine] at same
  exact ⟨active, held, same⟩

/-- R168, R170: the Table Controller's part of a teardown; no exchange of the segment serves a record while it waits. -/
theorem Part.QueuesSound.recordTeardown (h : s.QueuesSound) (g : Segment) : (s.recordTeardown g).QueuesSound := by
  unfold Part.recordTeardown
  split
  · exact h
  · next abandoned rest waits =>
    have handed : (s.updateControl g fun c => { c with recordTeardowns := rest }).QueuesSound :=
      h.updateControl g (Or.inr fun none => by rw [waits] at none; cases none)
    obtain ⟨active, held, same⟩ := (s.updateControl g fun c => { c with recordTeardowns := rest }).recordBacklog_engine g
    refine Part.QueuesSound.inSlotOrder ((handed.recordBacklog g).tearRecords g abandoned fun n => ?_) _
    rw [← Option.not_isSome_iff_eq_none, Engine.inFlight_iff, same, Part.updateControl_engine]
    rintro (⟨x, hx, hn⟩ | ⟨o, ho, -⟩)
    · obtain ⟨-, -, none⟩ := (h g).single x hx (by simp [hn])
      rw [waits] at none
      cases none
    · cases ho

end Claims

end Sys2Proof.Machine
end

section
/-! SUPPORT. The cycle, the life of a segment and every command keep the Due Queues sound (R84, R86, R87). -/

namespace Sys2Proof.Machine

section Cycle
variable {s : Part}

/-! ### The cycle -/

/-- A claim that changes neither the table nor a segment: what the ports hold, what goes out, the free tokens drawn. -/
theorem Part.QueuesSound.bus {t : Part} (h : s.QueuesSound) (slots : t.slots = s.slots) (segA : t.segA = s.segA)
    (segB : t.segB = s.segB) : t.QueuesSound :=
  h.ports (Part.record_congr slots) fun g => by
    cases g
    · exact segA
    · exact segB

/-- R80, R81: a cycle step leaves a record's guarded write, and its state but for LIVE, which can become STALE. -/
theorem stepVerdict_state (n : Nat) (r : Record) : (stepVerdict n r).1.guardPhase = r.guardPhase ∧
    ((stepVerdict n r).1.state = r.state ∨ (r.state.served = true ∧ (stepVerdict n r).1.state.served = true)) := by
  unfold stepVerdict
  dsimp only
  split
  · next outlived =>
    simp only [Record.outlived, Bool.and_eq_true, beq_iff_eq] at outlived
    obtain ⟨⟨live, -⟩, -⟩ := outlived
    exact ⟨rfl, Or.inr ⟨by rw [live]; rfl, rfl⟩⟩
  · exact ⟨rfl, Or.inl rfl⟩

/-- R82: a newly due record is a served record of the segment that is not queued. -/
theorem Part.newlyDue_queue {g : Segment} {n : Nat} {r : Record} (h : s.newlyDue g n r = true) :
    r.segment = g ∧ r.state.served = true ∧ (s.engine g).queued n = false := by
  simp only [Part.newlyDue, Bool.and_eq_true, beq_iff_eq, Bool.not_eq_true'] at h
  obtain ⟨⟨⟨⟨segment, served⟩, -⟩, unqueued⟩, -⟩ := h
  exact ⟨segment, served, unqueued⟩

theorem Part.mem_dueList {g : Segment} {n : Nat} (h : n ∈ s.dueList g) :
    ∃ r, s.record n = some r ∧ s.newlyDue g n r = true := by
  simp only [Part.dueList, List.mem_append, Part.mem_slotsWhere, Bool.and_eq_true] at h
  obtain ⟨r, hr, due, -⟩ | ⟨r, hr, due, -⟩ := h <;> exact ⟨r, hr, due⟩

/-- R85: a slot is newly due once. -/
theorem Part.nodup_dueList (s : Part) (g : Segment) : (s.dueList g).Nodup := by
  refine List.nodup_append.mpr ⟨s.nodup_slotsWhere _, s.nodup_slotsWhere _, ?_⟩
  rintro n hn _ hm rfl
  obtain ⟨q, hq, output⟩ := (s.mem_slotsWhere _ _).mp hn
  obtain ⟨r, hr, input⟩ := (s.mem_slotsWhere _ _).mp hm
  rw [hq, Option.some_inj] at hr
  simp [hr] at output input
  simp [output] at input

/-- R84, R85: the queue is rebuilt when nothing of the segment's records is in flight. -/
theorem Part.QueuesSound.takeStep (h : s.QueuesSound) (g : Segment) : (s.takeStep g).QueuesSound := by
  unfold Part.takeStep
  dsimp only
  split
  case isFalse => exact h
  case isTrue ready =>
    obtain ⟨steps, none, -⟩ := ready
    have noSlot : ∀ x, (s.engine g).exchange = some x → ¬x.slot.isSome = true := fun x hx hs => by
      obtain ⟨-, zero, -⟩ := (h g).single x hx hs
      exact steps zero
    have stepped : (s.forRecords (fun _ r => r.segment == g) stepVerdict).QueuesSound :=
      h.tellRecords _ stepVerdict_fixed (fun n r => (stepVerdict_state n r).1) fun n r => (stepVerdict_state n r).2
    refine stepped.enqueue (new := s.dueList g) (s.nodup_dueList g) (fun n hn => ?_) (fun n _ => ?_) (fun n hn => ?_) ?_ ?_
      (fun _ => by rw [Part.forRecords_engine]; rfl) ?_
    · rw [Part.forRecords_engine]
      obtain ⟨r, -, due⟩ := Part.mem_dueList hn
      obtain ⟨-, -, unqueued⟩ := Part.newlyDue_queue due
      exact unqueued
    · rw [Part.forRecords_engine, ← Option.not_isSome_iff_eq_none, Engine.inFlight_iff, none]
      rintro (⟨x, hx, hs⟩ | ⟨o, ho, -⟩)
      · exact noSlot x hx (by simp [hs])
      · cases ho
    · obtain ⟨r, hr, due⟩ := Part.mem_dueList hn
      obtain ⟨segment, served, -⟩ := Part.newlyDue_queue due
      refine ⟨_, by rw [Part.forRecords_record, hr, Option.map_some, if_pos (beq_iff_eq.mpr segment)], ?_, Or.inl ?_⟩
      · rw [Record.withReasons_segment, Record.segment_of_fixed (stepVerdict_fixed n r), segment]
      · rw [Record.withReasons_state]
        exact (stepVerdict_state n r).2.elim (fun same => same ▸ served) And.right
    · rw [Part.forRecords_engine]
      simp only [Engine.rebuild, List.map_append, List.map_map, Function.comp_def, List.map_id', List.append_nil]
      exact List.perm_append_comm
    · exact List.Pairwise.nil
    · rw [Part.forRecords_engine, Part.forRecords_control]
      exact ⟨fun x hx hs => absurd hs (noSlot x hx), (h g).waiting, (h g).onWire⟩

/-- R50, R90: the start of an exchange leaves the record's state and fixed fields. -/
theorem Record.started_state (r : Record) : r.started.state = r.state := by
  unfold Record.started
  split
  · rfl
  · rfl
  · split <;> rfl

/-- R90: a record leaves the queue, started, as its exchange goes on the line. -/
theorem Part.QueuesSound.launch (h : s.QueuesSound) {n : Nat} {r : Record} (hr : s.record n = some r)
    (may : r.mayQueue) (toTable : (s.engine r.segment).toTable = []) (steps : (s.engine r.segment).stepsDue = 0)
    (done : (s.control r.segment).recordTeardowns = []) (c : SegmentConfig) (elapsed : Nat) {x : Exchange}
    (hx : x.slot = some n) (frame : List Byte) :
    (((s.withRecord n r.started).dequeue r.segment n).updateEngine r.segment fun e =>
      (e.elapse elapsed).startExchange c x frame).QueuesSound := by
  have segment := Record.segment_of_fixed r.started_fixed
  have live : r.started.state ≠ .retired := by
    rw [r.started_state]
    obtain served | ⟨retiring, -⟩ := may
    · exact fun e => by simp [e, RecordState.served] at served
    · simp [retiring]
  have unqueued := h.dequeue_unqueued hr
  have out := (h.dequeue r.segment n).withRecord (r := r.started)
    (.of_unqueued (q := r) (by simpa using hr) unqueued segment fun _ => live)
  rw [Part.dequeue, Part.withRecord_updateEngine]
  refine out.startExchange (r := r.started) (n := n) (fun g => ?_) ?_ segment live ?_ ?_ ?_ c elapsed hx frame
  · simpa using unqueued g
  · exact Part.withRecord_record _ _ _ (by simpa [Part.dequeue] using Part.record_lt hr)
  · simpa [Part.dequeue, Engine.remove] using toTable
  · simpa [Part.dequeue, Engine.remove] using steps
  · simpa [Part.dequeue] using done

/-- R88, R90: the head record leaves the queue as its exchange starts. -/
theorem Part.QueuesSound.considerHead (h : s.QueuesSound) (g : Segment) (elapsed : Nat) (may : s.mayStart g = true) :
    (s.considerHead g elapsed).QueuesSound := by
  simp only [Part.mayStart, Bool.and_eq_true, beq_iff_eq, Control.teardownDone, List.isEmpty_iff] at may
  obtain ⟨⟨⟨⟨-, steps⟩, none⟩, -, done⟩, -⟩ := may
  unfold Part.considerHead
  split
  case h_2 => exact h
  case h_1 q rest _ hq _ =>
    split
    · exact h
    · next r hr =>
      split
      · exact h
      · next k _ =>
        split
        · obtain ⟨_, hr', rfl, may⟩ := (h g).entries q.slot ((Engine.queued_iff _ _).mpr (Or.inl ⟨q, by simp [hq], rfl⟩))
          rw [hr, Option.some_inj] at hr'
          subst hr'
          have drawn : Part.QueuesSound
              { s with freeDraws := if r.started.drawsToken k then s.freeDraws + 1 else s.freeDraws } := h.bus rfl rfl rfl
          exact drawn.launch hr may none steps done _ elapsed (by rfl) _
        · exact h.flows g ((Engine.Flows.elapse _ elapsed).trans (.of_eq rfl rfl rfl rfl rfl fun _ => id))

/-- R94: a PROBE is considered. -/
theorem Part.QueuesSound.considerProbe (h : s.QueuesSound) (g : Segment) (elapsed : Nat) :
    (s.considerProbe g elapsed).QueuesSound := by
  unfold Part.considerProbe
  split
  · dsimp only
    split
    · exact h.flows g (((Engine.Flows.elapse _ elapsed).trans (.startProbe _ _ _)).trans
        (.of_eq rfl rfl rfl rfl rfl fun _ => id))
    · exact h.flows g ((Engine.Flows.elapse _ elapsed).trans (.of_eq rfl rfl rfl rfl rfl fun _ => id))
  · exact h

theorem Part.QueuesSound.expireCycle (h : s.QueuesSound) (g : Segment) : (s.expireCycle g).QueuesSound := by
  unfold Part.expireCycle
  dsimp only
  split
  · next due =>
    obtain ⟨-, ready, -⟩ := due
    exact h.flows g (.of_idle (by rw [ready]; rfl) rfl rfl rfl rfl)
  · exact h

/-! ### The scan (R164, R165) -/

theorem Part.QueuesSound.enterState (h : s.QueuesSound) (g : Segment) (new : SegmentState) :
    (s.enterState g new).QueuesSound :=
  (h.updateControl g (Or.inr id)).setFlags g

theorem Part.QueuesSound.endScan (h : s.QueuesSound) (g : Segment) : (s.endScan g).QueuesSound := by
  unfold Part.endScan
  exact .flows (.enterState (h.updateControl g (Or.inr id)) g .running) g (.callMark _ _)

theorem Part.QueuesSound.scanFrom (h : s.QueuesSound) (g : Segment) (position : Nat) :
    (s.scanFrom g position).QueuesSound := by
  unfold Part.scanFrom
  split
  · exact h.updateControl g (Or.inr id)
  · exact h.endScan g

theorem Part.QueuesSound.startScanProbe (h : s.QueuesSound) (g : Segment) : (s.startScanProbe g).QueuesSound := by
  unfold Part.startScanProbe
  split
  · split
    · exact Part.QueuesSound.flows (h.updateControl g (Or.inr id)) g (.startProbe _ _ _)
    · exact h.endScan g
  · exact h

theorem Part.QueuesSound.endSettling (h : s.QueuesSound) (g : Segment) : (s.endSettling g).QueuesSound := by
  unfold Part.endSettling
  split
  · next left settling =>
    have ready : (s.updateEngine g fun e => { e.elapse left with state := .ready }).QueuesSound :=
      h.flows g ((Engine.Flows.elapse _ left).trans (.of_idle (by simp [Engine.elapse, settling, EngineState.onWire])
        rfl rfl rfl rfl))
    dsimp only
    split
    · exact ready.flows g (.callMark _ _)
    · split
      · exact ready.scanFrom g _
      · exact ready
  · exact h

/-! ### The life of a segment -/

theorem Part.QueuesSound.expireSettle (h : s.QueuesSound) (g : Segment) : (s.expireSettle g).QueuesSound := by
  unfold Part.expireSettle
  split
  · exact Part.QueuesSound.scanFrom (.enterState (h.updateControl g (Or.inr id)) g _) g 1
  · exact h

theorem Part.QueuesSound.supply (h : s.QueuesSound) (g : Segment) (level : Bool) : (s.supply g level).QueuesSound := by
  have levelled : (s.updateControl g fun c => { c with faultIn := level }).QueuesSound :=
    h.updateControl g (Or.inr id)
  unfold Part.supply
  dsimp only
  split
  · exact levelled.tearDown g .fault
  · exact levelled

theorem Part.QueuesSound.commandOn (h : s.QueuesSound) (g : Segment) : (s.commandOn g).1.QueuesSound := by
  unfold Part.commandOn
  split
  · have powered := Part.QueuesSound.enterState (h.updateControl g (f := fun c =>
      { c with powerOut := true, settleTimer := some c.config.settleLength, scanPosition := none }) (Or.inr id)) g .powering
    dsimp only
    split
    · exact powered.tearDown g .fault
    · exact powered
  all_goals exact h

theorem Part.QueuesSound.commandOff (h : s.QueuesSound) (g : Segment) : (s.commandOff g).1.QueuesSound := by
  unfold Part.commandOff
  split
  · exact h
  · exact h.enterState g .off
  all_goals exact h.tearDown g .off

theorem Part.QueuesSound.commandHold (h : s.QueuesSound) (g : Segment) : (s.commandHold g).1.QueuesSound := by
  unfold Part.commandHold
  split
  · dsimp only
    exact .flows (h.enterState g .held) g (.of_eq (by rfl) (by rfl) (by rfl) (by rfl) (by rfl) fun _ => id)
  all_goals exact h

theorem Part.QueuesSound.commandRelease (h : s.QueuesSound) (g : Segment) : (s.commandRelease g).1.QueuesSound := by
  unfold Part.commandRelease
  split
  · dsimp only
    exact .flows (h.enterState g .running) g (.callMark _ _)
  all_goals exact h

theorem Part.QueuesSound.ownConfigure (h : s.QueuesSound) (f : RequestFrame) : (s.ownConfigure f).1.QueuesSound := by
  unfold Part.ownConfigure
  split
  · split
    · exact h
    · split
      · exact h
      · split
        · exact h
        · dsimp only
          exact h.updateControl _ (Or.inr id)
  · exact h

/-! ### The ports -/

theorem Part.QueuesSound.ownStatus (h : s.QueuesSound) (p : Port) (f : RequestFrame) : (s.ownStatus p f).1.QueuesSound := by
  unfold Part.ownStatus
  split
  · split
    · exact h
    · dsimp only
      exact h.updatePort p _
  · exact h

theorem Part.QueuesSound.ownPortConfigure (h : s.QueuesSound) (p : Port) (f : RequestFrame) :
    (s.ownPortConfigure p f).1.QueuesSound := by
  unfold Part.ownPortConfigure
  split
  · split
    · exact h
    · exact h
    · dsimp only
      exact h.updatePort p _
  · exact h

/-- R194: an operation of Port 0. -/
theorem Part.QueuesSound.onPort0 {α : Type} (h : s.QueuesSound) (tr : Spi α) (out : α → Part → List Byte)
    (b : α → Part → Buffer) : (s.onPort0 tr fun a s => s.transact (out a s) (b a s)).QueuesSound := by
  cases tr with
  | rest a =>
    unfold Part.onPort0 Part.afterFall
    dsimp only
    split
    · exact h.bus rfl rfl rfl
    · exact h
  | _ => exact h.bus rfl rfl rfl

end Cycle

/-! ### Every command -/

/-- A request whose owner keeps the queues sound. -/
theorem Part.QueuesSound.takeRequest {s : Part} (h : s.QueuesSound) {p : Port} {c : RequestCode}
    {owner : RequestFrame → Part × Answer} (owned : ∀ f, (owner f).1.QueuesSound) :
    (s.takeRequest p c owner).QueuesSound :=
  Part.takeRequest_keeps (P := Part.QueuesSound) h fun f _ => (owned f).answer p f _ _

theorem Part.QueuesSound.takeCommand {s : Part} (h : s.QueuesSound) {p : Port} {c : SegmentCommand}
    {run : Segment → Part × Answer} (runs : ∀ g, (run g).1.QueuesSound) : (s.takeCommand p c run).QueuesSound :=
  Part.takeCommand_keeps (P := Part.QueuesSound) h (fun _ f a hu => hu.answer p f a.status a.results) runs

/-- Every command keeps the Due Queues sound. -/
theorem exec_keeps_queuesSound (c : Instr) (s t : State) (hq : s.part.QueuesSound) (h : exec c s = .next t) :
    t.part.QueuesSound := by
  have claimed {f : Part → Part} (hf : (f s.part).QueuesSound) (h : s.claim f = .next t) : t.part.QueuesSound :=
    State.claim_keeps (P := Part.QueuesSound) hq hf h
  have flowed {g : Segment} {f : Part → Engine → Engine} (hf : (s.part.engine g).Flows (f s.part (s.part.engine g)))
      (h : (s.claim fun s => s.updateEngine g (f s)) = .next t) : t.part.QueuesSound := claimed (hq.flows g hf) h
  have asked {p : Port} {k : RequestCode} {owner : Part → RequestFrame → Part × Answer}
      (hf : ∀ f, (owner s.part f).1.QueuesSound) (h : (s.claim fun s => s.takeRequest p k (owner s)) = .next t) :
      t.part.QueuesSound := claimed (hq.takeRequest hf) h
  cases c
  all_goals dsimp only [exec] at h
  case lookup | scanFrom | read => exact claimed (hq.takeRequest fun _ => hq) h
  case insert p => exact asked (fun f => hq.ownInsert p f) h
  case amend p => exact asked (fun f => hq.ownAmend p f) h
  case write p => exact asked (fun f => hq.ownWrite p f) h
  case resume p => exact asked (fun f => hq.ownReturn p f (fun _ => rfl) fun _ => rfl) h
  case restart p =>
    exact asked (fun f => hq.ownReturn p f (fun r => Record.segment_of_fixed r.restartGuard_fixed) fun r => by
      unfold Record.restartGuard; split <;> rfl) h
  case retire p => exact asked (fun f => hq.ownRetire p f) h
  case purge p => exact asked (fun _ => hq.ownPurge p) h
  case takeAttention p => exact asked (fun _ => hq.ownNotice p) h
  case stationQuery =>
    exact asked (fun f => Part.onStation_keeps (P := Part.QueuesSound) hq fun _ _ _ _ => hq) h
  case stationBar =>
    exact asked (fun f => Part.onStation_keeps (P := Part.QueuesSound) hq fun g n e _ => hq.barStation g n e) h
  case stationUnbar =>
    refine asked (fun f => Part.onStation_keeps (P := Part.QueuesSound) hq fun g n e _ => ?_) h
    split
    · exact hq.unbarStation g n e
    · exact hq
  case segmentConfigure p =>
    exact claimed (Part.takeConfigure_keeps (P := Part.QueuesSound) hq fun f _ _ => (hq.ownConfigure f).answer p f _ _) h
  case segmentCommandOn => exact claimed (hq.takeCommand hq.commandOn) h
  case segmentCommandOff => exact claimed (hq.takeCommand hq.commandOff) h
  case segmentCommandHold => exact claimed (hq.takeCommand hq.commandHold) h
  case segmentCommandRelease => exact claimed (hq.takeCommand hq.commandRelease) h
  case segmentStatus p => exact asked (fun f => hq.ownStatus p f) h
  case portConfigure p => exact asked (fun f => hq.ownPortConfigure p f) h
  case submit | collect | poll | unknownOperation => exact claimed (hq.onPort0 _ _ _) h
  case writeTransfer | readTransfer =>
    refine claimed ?_ h
    split <;> exact hq.bus rfl rfl rfl
  case cycleTimerExpiry g => exact claimed (hq.expireCycle g) h
  case cycleStep g => exact claimed (hq.takeStep g) h
  case markEnd => exact flowed (f := fun s e => e.endMark (s.control _).config) (.endMark _ _) h
  case settlingEnd g => exact claimed (hq.endSettling g) h
  case exchangeStart g elapsed =>
    refine claimed ?_ h
    split
    · next may => exact hq.considerHead g elapsed may
    · exact hq
  case probeStart g elapsed =>
    refine claimed ?_ h
    split
    · exact hq.considerProbe g elapsed
    · exact hq
  case scanProbeStart g => exact claimed (hq.startScanProbe g) h
  case requestEnd => exact flowed (f := fun s e => e.endRequest (s.control _).config) (.endRequest _ _) h
  case replyWindowExpiry => exact flowed (f := fun s e => e.expireWindow (s.control _).config) (.expireWindow _ _) h
  case replyStart g line => exact flowed (f := fun s e => e.listen (s.control _).config line) (.listen _ _ _) h
  case characterReceived g elapsed before line =>
    exact flowed (f := fun s e => e.sampleCharacter (s.control _).config elapsed before line)
      (.sampleCharacter _ _ _ _ _) h
  case characterGapExpiry => exact flowed (f := fun s e => e.expireGap (s.control _).config) (.expireGap _ _) h
  case replyDeadlineExpiry =>
    exact flowed (f := fun s e => e.expireDeadline (s.control _).config) (.expireDeadline _ _) h
  case outcomeTaken g => exact claimed (hq.nextOutcome g) h
  case stationOutcome g => exact claimed (hq.nextStationOutcome g false) h
  case probeOutcome g => exact claimed (hq.nextStationOutcome g true) h
  case settleTimerExpiry g => exact claimed (hq.expireSettle g) h
  case stationTeardown g => exact claimed (hq.stationTeardown g) h
  case recordTeardown g => exact claimed (hq.recordTeardown g) h
  case supplyFault g level =>
    cases h
    exact hq.supply g level
  case reset | powerOn =>
    cases h
    exact Part.QueuesSound.congr (s := .reset) Part.reset_queueSound (fun _ => rfl) (fun g => by cases g <;> rfl)
      fun g => by cases g <;> rfl
  case resetRelease adr =>
    cases h
    show (s.part.riseFromReset adr).QueuesSound
    unfold Part.riseFromReset
    split
    · exact hq.bus rfl rfl rfl
    · exact hq

/-- Settles O59: every command keeps the queues sound, and so does every step. -/
theorem queuesStaySound : Obligations.QueuesStaySound := by
  intro s t hq h
  exact step_keeps (P := Part.QueuesSound) (fun _ => id) exec_keeps_queuesSound hq h

end Sys2Proof.Machine
end

section
/-! SUPPORT. The outcome on a served record whose station is PRESENT (sections 5.3 to 5.6 and 6.2 to 6.7): the failures, the
phase results of a guarded write, and where the record goes after them (R86). -/

namespace Sys2Proof.Machine

/-! ### Placements (R86) -/

section Place
variable (s : Part) (g : Segment) (n : Nat)

@[simp] theorem Part.place_done : s.place g n .done = s :=
  ite_self s

/-- R86, R104: to the tail of the held part of a segment that is RUNNING or HELD (log 16). -/
theorem Part.place_carry : s.place g n .carry =
    if (s.control g).state = .running ∨ (s.control g).state = .held then
      s.updateEngine g fun e => { e with held := e.held ++ [n] }
    else s := by
  simp only [← SegmentState.queues_iff]
  rfl

/-- R86, R124: to the head of the active part of a segment that is RUNNING or HELD (log 16). -/
theorem Part.place_proceed : s.place g n .proceed =
    if (s.control g).state = .running ∨ (s.control g).state = .held then
      s.updateEngine g fun e => { e with active := ⟨n, false⟩ :: e.active }
    else s := by
  simp only [← SegmentState.queues_iff]
  rfl

end Place

/-! ### What an outcome makes of the record -/

/-- R102, case 4: an outcome that is no success is a failure. -/
theorem Record.served_failure {r : Record} {k : ExchangeKind} {result : ExchangeResult}
    (h : r.success k result = none) : r.served k result = r.failure result := by
  simp [Record.served, h]

/-- R102, case 4: a success. -/
theorem Record.served_success {r : Record} {k : ExchangeKind} {result : ExchangeResult} {e : Effect}
    (h : r.success k result = some e) : r.served k result = e := by
  simp [Record.served, h]

theorem Record.success_defer (r : Record) (k : ExchangeKind) : r.success k .defer = none := by
  cases k <;> rfl

theorem Record.success_timeout (r : Record) (k : ExchangeKind) : r.success k .timeout = none := by
  cases k <;> rfl

theorem Record.success_error (r : Record) (k : ExchangeKind) (e : RecordError) : r.success k (.error e) = none := by
  cases k <;> rfl

/-- R134: REFUSE is a success of a CANCEL alone. -/
theorem Record.success_refuse (r : Record) {k : ExchangeKind} (h : k ≠ .cancel) : r.success k .refuse = none := by
  cases k
  case cancel => exact absurd rfl h
  all_goals rfl

/-- R110: a record error below the budget. -/
theorem Record.onError_below {r : Record} (e : RecordError) (h : r.errorCount + 1 < r.retryBudget) : r.onError e =
    ⟨{ r.restored.noteMissed with errorCount := r.errorCount + 1, condition := e.condition }, [], .carry⟩ :=
  if_neg (Nat.not_le.mpr h)

/-- R110: a record error that exhausts the budget. -/
theorem Record.onError_exhausted {r : Record} (e : RecordError) (h : r.retryBudget ≤ r.errorCount + 1) : r.onError e =
    ⟨{ r.restored.noteMissed with errorCount := r.errorCount + 1, state := .halted, condition := .exhausted },
      [.halted], .done⟩ :=
  if_pos h

/-! ### The outcome taken -/

section Taken
variable {g : Segment} {s : State} {o : ExchangeOutcome} {waiting : List ExchangeOutcome} {n : Nat} {r : Record}

/-- R102, case 4: the outcome on a served record whose station is PRESENT. -/
theorem Part.outcomeOn_served {s : Part} (served : r.state.served = true) (current : r.supersedes o.exchange = false)
    (torn : Bool) {e : Effect} (h : r.served o.exchange.kind o.result = e) :
    s.outcomeOn n r o true torn = (s.put n e.record e.reasons).place r.segment n e.placement := by
  rw [← h]
  cases hs : r.state <;> simp_all [Part.outcomeOn, RecordState.served]

theorem exec_outcomeTaken_served (awake : s.part.resetLow = false) (first : (s.part.engine g).toTable = o :: waiting)
    (slot : o.exchange.slot = some n) (record : s.part.record n = some r) (present : s.part.PresentFor o r)
    (served : r.state.served = true) (current : r.supersedes o.exchange = false) {e : Effect}
    (h : r.served o.exchange.kind o.result = e) : exec (.outcomeTaken g) s = .next (s.with
      (((s.part.updateEngine g fun e => { e with toTable := waiting }).put n e.record e.reasons).place r.segment n
        e.placement)) := by
  rw [exec_outcomeTaken awake first slot record, (s.part.presentFor_iff o r).mp present,
    Part.outcomeOn_served served current false h]

end Taken

/-- Settles O46: what `Record.failure` makes of the record, and the placement that it asks for. -/
theorem failuresApply : Obligations.FailuresApply := by
  intro g s o waiting n r awake first slot record present served current u r₀ r₁ carry becomes
  have taken {e : Effect} (none : r.success o.exchange.kind o.result = none) (h : r.failure o.result = e) :
      becomes ((u.put n e.record e.reasons).place r.segment n e.placement) :=
    exec_outcomeTaken_served awake first slot record present served current ((Record.served_failure none).trans h)
  have carried {q : Record} (none : r.success o.exchange.kind o.result = none) (h : r.failure o.result = ⟨q, [], .carry⟩) :
      becomes (carry (u.withRecord n q)) := by
    simpa [Part.place_carry, carry, u] using taken none h
  have halted {q : Record} (none : r.success o.exchange.kind o.result = none)
      (h : r.failure o.result = ⟨q, [.halted], .done⟩) : becomes (u.put n q [.halted]) := by
    simpa using taken none h
  refine ⟨fun hr => ?_, fun hr => ?_, fun hr hk => ?_, fun error hr => ?_⟩
  · exact carried (hr ▸ r.success_defer _) (hr ▸ rfl)
  · exact carried (hr ▸ r.success_timeout _) (hr ▸ rfl)
  · exact halted (hr ▸ r.success_refuse hk) (hr ▸ rfl)
  intro name
  refine ⟨fun below => ?_, fun reached => ?_⟩
  · have named : error.condition = name := by cases error <;> rfl
    rw [← named]
    exact carried (hr ▸ r.success_error _ error) (hr ▸ Record.onError_below error below)
  · exact halted (hr ▸ r.success_error _ error) (hr ▸ Record.onError_exhausted error reached)

/-- R29, R105: the reason of a good exchange, by the state that the record leaves. -/
theorem RecordState.goodReasons_eq (state : RecordState) :
    state.goodReasons = if state = .pending then [.arrived] else if state = .stale then [.fresh] else [] := by
  cases state <;> rfl

/-- Settles O47: what `Record.success` makes of the record in each phase, and the placement that it asks for. -/
theorem phaseResultsApply : Obligations.PhaseResultsApply := by
  intro g s o waiting n r awake first slot record present served token u proceed becomes closed
  have taken {e : Effect} {k : ExchangeKind} {phase : GuardPhase} (hk : o.exchange.kind = k) (hp : r.guardPhase = phase)
      (own : k.phase = some phase) (h : r.success k o.result = some e) :
      becomes ((u.put n e.record e.reasons).place r.segment n e.placement) := by
    subst hk hp
    refine exec_outcomeTaken_served awake first slot record present served ?_ (Record.served_success h)
    refine (r.supersedes_eq_false_iff o.exchange).mpr fun ph hph => ?_
    rw [own, Option.some_inj] at hph
    exact ⟨hph, token⟩
  have proceeds {q : Record} {k : ExchangeKind} {phase : GuardPhase} (hk : o.exchange.kind = k)
      (hp : r.guardPhase = phase) (own : k.phase = some phase) (h : r.success k o.result = some ⟨q, [], .proceed⟩) :
      becomes (proceed (u.withRecord n q)) := by
    simpa [Part.place_proceed, proceed, u] using taken hk hp own h
  have done {q : Record} {l : List Reason} {k : ExchangeKind} {phase : GuardPhase} (hk : o.exchange.kind = k)
      (hp : r.guardPhase = phase) (own : k.phase = some phase) (h : r.success k o.result = some ⟨q, l, .done⟩) :
      becomes (u.put n q l) := by
    simpa using taken hk hp own h
  refine ⟨fun hk hp hr => ?_, fun t v payload hk hp ht hv hr => ⟨fun echo => ?_, fun other => ?_⟩, fun hk hp hr => ?_,
    fun hk hp => ⟨fun hr => ?_, fun hr => ?_⟩⟩
  · exact proceeds hk hp rfl (hr ▸ rfl)
  · refine proceeds hk hp rfl (hr ▸ congrArg some (if_pos ?_))
    exact (Record.echoEqual_iff ht hv).mpr echo
  · refine done hk hp rfl (hr ▸ congrArg some (if_neg ?_))
    exact mt (Record.echoEqual_iff ht hv).mp other
  · rw [← RecordState.goodReasons_eq]
    exact done hk hp rfl (hr ▸ rfl)
  · exact proceeds hk hp rfl (hr ▸ rfl)
  · exact proceeds hk hp rfl (hr ▸ rfl)

end Sys2Proof.Machine
end

section
/-! SUPPORT. The outcome of a RETIRING record (R33, R50, R137), and the place of an owed CANCEL (R86). -/

namespace Sys2Proof.Machine

/-- R50: is the record in the slot RETIRING? -/
theorem Part.retiringSlot_iff (s : Part) (n : Nat) :
    s.retiringSlot n = true ↔ ∃ r, s.record n = some r ∧ r.state = .retiring := by
  simp [Part.retiringSlot, Option.any_eq_true]

/-- R50, R86: an owed CANCEL stands between the owed CANCELs already there and the rest. -/
theorem Part.placeOwedCancel_between {s : Part} {g : Segment} {owed others : List Nat} (n : Nat)
    (held : (s.engine g).held = owed ++ others) (lead : ∀ m ∈ owed, s.retiringSlot m = true)
    (rest : ∀ m ∈ others, s.retiringSlot m = false) :
    s.placeOwedCancel g n = s.updateEngine g fun e => { e with held := owed ++ n :: others } := by
  obtain ⟨taken, dropped⟩ := s.owedCancels_split owed others lead rest
  have held' : (s.seg g).engine.held = owed ++ others := held
  simp only [Part.placeOwedCancel, Part.updateEngine, held', taken, dropped]

/-- R50: a CANCEL is owed in the phases VERIFY, COMMIT and CANCEL, and where the exchange in flight was a STAGE. -/
theorem Record.cancelOwed_some_iff (r : Record) (k : ExchangeKind) : r.cancelOwed (some k) = true ↔
    r.kind = .guarded ∧ (r.guardPhase = .verify ∨ r.guardPhase = .commit ∨ r.guardPhase = .cancel ∨ k = .stage) := by
  unfold Record.cancelOwed
  cases r.guardPhase <;> simp

section Retiring
variable {s : Part} {n : Nat} {r : Record} {o : ExchangeOutcome} {present : Bool}

/-- R52: the outcome of a record with silent retire. -/
theorem Part.retiringOutcome_silent (silent : r.silentRetire = true) (torn : Bool) :
    s.retiringOutcome n r o present torn = s.release n :=
  if_pos silent

/-- R137: the ACCEPT of an owed CANCEL. -/
theorem Part.retiringOutcome_cancelled (loud : r.silentRetire = false) (cancel : o.exchange.owedCancel = true)
    (accept : o.result = .accept) (torn : Bool) : s.retiringOutcome n r o present torn =
      s.put n { r.closeWrite with state := .retired, condition := .cancelled } [.retired] := by
  simp [Part.retiringOutcome, loud, cancel, accept]

/-- R137: any other outcome of an owed CANCEL. -/
theorem Part.retiringOutcome_unconfirmed (loud : r.silentRetire = false) (cancel : o.exchange.owedCancel = true)
    (other : o.result ≠ .accept) (torn : Bool) : s.retiringOutcome n r o present torn =
      s.put n { r with state := .retired, condition := .cancelUnconfirmed } [.retired] := by
  simp [Part.retiringOutcome, loud, cancel, other]

section Discarded
variable (loud : r.silentRetire = false) (discarded : o.exchange.owedCancel = false)
include loud discarded

/-- R33, R50: the record goes on to its owed CANCEL. -/
theorem Part.retiringOutcome_owes (owed : r.cancelOwed (some o.exchange.kind) = true) (placeable : present = true)
    (queues : (s.control r.segment).state.queues = true) :
    s.retiringOutcome n r o present false = s.oweCancel n r := by
  simp [Part.retiringOutcome, loud, discarded, owed, placeable, queues]

/-- R50: the owed CANCEL cannot be placed. -/
theorem Part.retiringOutcome_stranded (owed : r.cancelOwed (some o.exchange.kind) = true)
    (stranded : ¬(present = true ∧ (s.control r.segment).state.queues = true)) :
    s.retiringOutcome n r o present false =
      s.put n { r with state := .retired, condition := .cancelUnconfirmed } [.retired] := by
  simp only [Part.retiringOutcome, loud, discarded, owed, Bool.false_eq_true, if_false, if_true, Bool.and_false,
    Bool.and_eq_true, if_neg stranded]

/-- R33: no CANCEL is owed. -/
theorem Part.retiringOutcome_retires (free : r.cancelOwed (some o.exchange.kind) = false) (torn : Bool) :
    s.retiringOutcome n r o present torn = s.put n { r with state := .retired } [.retired] := by
  simp [Part.retiringOutcome, loud, discarded, free]

end Discarded

end Retiring

/-- Settles O49: by silent retire, the owed CANCEL that was in flight, and the one that the record comes to owe. -/
theorem retiringOutcomesApply : Obligations.RetiringOutcomesApply := by
  refine ⟨fun s g n owed others held lead rest => ?_, ?_⟩
  · refine Part.placeOwedCancel_between n held (fun m hm => (s.retiringSlot_iff m).mpr (lead m hm)) fun m hm => ?_
    refine Bool.eq_false_iff.mpr fun retiring => ?_
    obtain ⟨r, hr, state⟩ := (s.retiringSlot_iff m).mp retiring
    exact rest m r hm hr state
  intro g s o waiting n r awake first slot record state u becomes owed placeable unconfirmed
  have taken {t : Part} (h : u.retiringOutcome n r o (o.standing.getD (s.part.present r.segment r.station)) false = t) :
      becomes t := by
    refine (exec_outcomeTaken awake first slot record).trans ?_
    rw [← h]
    simp only [Part.outcomeOn, state]
    rfl
  have howed : owed ↔ r.cancelOwed (some o.exchange.kind) = true := (r.cancelOwed_some_iff _).symm
  have hplace : placeable ↔ o.standing.getD (s.part.present r.segment r.station) = true ∧
      (u.control r.segment).state.queues = true := by
    rw [SegmentState.queues_iff, Part.updateEngine_control, ← Part.presentFor_iff]
  rw [howed, hplace]
  refine ⟨fun silent => taken (Part.retiringOutcome_silent silent _),
    fun loud cancel => ⟨fun accept => taken (Part.retiringOutcome_cancelled loud cancel accept _),
      fun other => taken (Part.retiringOutcome_unconfirmed loud cancel other _)⟩,
    fun loud discarded => ⟨fun owes place => ?_, fun owes stranded => taken
      (Part.retiringOutcome_stranded loud discarded owes stranded), fun free => ?_⟩⟩
  · have same : ({ r with state := .retiring, guardPhase := .cancel } : Record) = { r with guardPhase := .cancel } := by
      rw [← state]
    rw [← same]
    exact taken (Part.retiringOutcome_owes loud discarded owes place.1 place.2)
  · exact taken (Part.retiringOutcome_retires loud discarded (Bool.eq_false_iff.mpr free) _)

end Sys2Proof.Machine
end

section
/-! SUPPORT. MARKs and frames on the line (R54 to R60, R67, R76 to R79), and the end of a settling time (R96, R97). -/

namespace Sys2Proof.Machine

/-! ### Frames (R55, R57, R59, R60) -/

/-- R57: a 16-bit number in two bytes, high byte first. -/
theorem be16_toNat (v : BitVec 16) : be16 v.toNat = [v.extractLsb' 8 8, v.extractLsb' 0 8] := by
  have high : BitVec.ofNat 8 (v.toNat / 256) = v.extractLsb' 8 8 :=
    BitVec.eq_of_toNat_eq (by simp [Nat.shiftRight_eq_div_pow])
  have low : BitVec.ofNat 8 v.toNat = v.extractLsb' 0 8 := BitVec.eq_of_toNat_eq (by simp)
  rw [be16, high, low]

/-- R57, R59: the check stands behind header and payload, high byte first. -/
theorem withCheck_eq (bytes : List Byte) :
    withCheck bytes = bytes ++ [(check bytes).extractLsb' 8 8, (check bytes).extractLsb' 0 8] := by
  rw [withCheck, be16_toNat]

/-- R59: one bit enters the check register. -/
theorem checkBit_eq (register : BitVec 16) (bit : Bool) : checkBit register bit =
    if register.getLsbD 15 = bit then register <<< 1 else (register <<< 1) ^^^ 0x1021#16 := by
  simp only [checkBit, BitVec.msb_eq_getLsbD_last, bne_iff_ne, ne_eq, ite_not]

/-- R59: one byte enters the check register. -/
theorem check_append (bytes : List Byte) (b : Byte) : check (bytes ++ [b]) = checkByte (check bytes) b := by
  simp [check]

/-- R55: the bits of a character, in the order in which they go out. -/
theorem characterBits_getD (b : Byte) {bit : Nat} (h : bit < 10) : (characterBits b).getD bit true =
    if bit = 0 then false else if bit = 9 then true else b.getLsbD (bit - 1) := by
  interval_cases bit <;> rfl

/-- R54, R55: the characters of a frame go out without idle time between them, and the line is idle behind them. -/
theorem flatMap_characterBits_getD (frame : List Byte) (bit : Nat) : (frame.flatMap characterBits).getD bit true =
    match frame[bit / 10]? with
    | none => true
    | some b => if bit % 10 = 0 then false else if bit % 10 = 9 then true else b.getLsbD (bit % 10 - 1) := by
  induction frame generalizing bit with
  | nil => rfl
  | cons b rest ih =>
    rw [List.flatMap_cons]
    by_cases h : bit < 10
    · rw [List.getD_append _ _ _ _ h, characterBits_getD b h, Nat.div_eq_of_lt h, Nat.mod_eq_of_lt h]
      rfl
    · have next : bit / 10 = (bit - 10) / 10 + 1 := by omega
      have same : bit % 10 = (bit - 10) % 10 := by omega
      rw [List.getD_append_right _ _ _ _ (Nat.not_lt.mp h), next, same, List.getElem?_cons_succ]
      exact ih (bit - 10)

/-! ### The claims that send a MARK or end a frame -/

/-- R60: a MARK is 8 characters. -/
theorem markFrame_length (cycle : BitVec 16) : (markFrame cycle).length = 8 := by
  simp [markFrame, withCheck, be16]

/-- R76 to R79: the MARK of a cycle, in CLK cycles. -/
theorem Engine.sendMark_eq (e : Engine) (c : SegmentConfig) (cycle : BitVec 16) : e.sendMark c cycle = { e with
    cycleNumber := cycle
    cycleTimer := some (c.cyclePeriod * 1000)
    markOwed := false
    stepsDue := e.stepsDue + 1
    state := .request (c.bits 80)
    frame := markFrame cycle } := by
  simp only [Engine.sendMark, Engine.send, SegmentConfig.chars, markFrame_length, Config.charBits,
    SegmentConfig.cycleLength, Config.cycleUnit]

/-- R77: a MARK called for while the engine is READY goes out at once. -/
theorem Engine.callMark_ready {e : Engine} (c : SegmentConfig) (ready : e.state = .ready) :
    e.callMark c = e.sendMark c 0 :=
  if_pos ready

/-- What a claim makes of an engine, by the engine as it stands. -/
theorem Part.updateEngine_eq (s : Part) (g : Segment) (f : Engine → Engine) :
    s.updateEngine g f = s.updateEngine g fun _ => f (s.engine g) := rfl

/-- R76: the expiry of the cycle timer. -/
theorem Part.expireCycle_running {s : Part} {g : Segment} {left : Nat} (ready : (s.engine g).state = .ready)
    (running : (s.control g).state = .running) (timer : (s.engine g).cycleTimer = some left) :
    s.expireCycle g = s.updateEngine g fun _ =>
      (s.engine g).sendMark (s.control g).config ((s.engine g).cycleNumber + 1) := by
  simp only [Part.expireCycle, ready, running, timer, Option.isSome_some, and_self, if_true]
  exact Part.updateEngine_eq ..

/-- R60, R96: the end of a MARK. -/
theorem Engine.endMark_request {e : Engine} (c : SegmentConfig) {left : Nat} (sending : e.state = .request left)
    (none : e.exchange = none) : e.endMark c = { e with
      state := .settle (c.bits 20)
      frame := []
      cycleTimer := e.cycleTimer.map (· - left) } := by
  simp [Engine.endMark, sending, none, Engine.elapse, Engine.releaseLine, Config.gapBits]

/-- R67: the end of a request's frame. -/
theorem Engine.endRequest_request {e : Engine} (c : SegmentConfig) {left : Nat} {x : Exchange}
    (sending : e.state = .request left) (inFlight : e.exchange = some x) : e.endRequest c = { e with
      state := .wait (c.bits c.replyWindow)
      frame := []
      cycleTimer := e.cycleTimer.map (· - left)
      exchange := some { x with reserveLeft := x.reserveLeft - left } } := by
  simp [Engine.endRequest, sending, inFlight, Engine.elapse, Engine.releaseLine]

/-- R96: SxDE. -/
theorem Engine.driverEnable_iff (e : Engine) : e.driverEnable = true ↔ ∃ left, e.state = .request left := by
  cases hs : e.state <;> simp [Engine.driverEnable, hs]

/-- Settles O36: the frames by their bytes and bits, and the three claims by the engine state in which they run. -/
theorem marksAndFramesAreSent : Obligations.MarksAndFramesAreSent := by
  refine ⟨fun cycle => ?_, rfl, fun bytes b => ?_, by decide +kernel, fun e => ⟨e.driverEnable_iff, fun bit => ?_⟩,
    fun g s awake => ?_⟩
  · have body : [0x1#8, 0#8, 0#8, 2#8] ++ be16 cycle.toNat =
        [0x01, 0, 0, 2, cycle.extractLsb' 8 8, cycle.extractLsb' 0 8] := by rw [be16_toNat]; rfl
    rw [markFrame, body]
    exact withCheck_eq _
  · rw [check_append, checkByte]
    simp only [checkBit_eq]
  · exact flatMap_characterBits_getD e.frame bit
  intro e c become
  refine ⟨fun left ready running timer => ?_, fun left sending none => ?_, fun left x sending inFlight => ?_⟩
  · exact (s.claim_awake (·.expireCycle g) awake).trans
      (congrArg (fun t => Host.Outcome.next (s.with t)) (Part.expireCycle_running ready running timer))
  · exact State.claim_engine (f := fun t e => e.endMark (t.control g).config) awake
      (Engine.endMark_request c sending none)
  · exact State.claim_engine (f := fun t e => e.endRequest (t.control g).config) awake
      (Engine.endRequest_request c sending inFlight)

/-! ### The scan (R164, R165) -/

/-- What a search finds in a list that ascends by a key: the element of the least key that meets the test. -/
theorem find?_eq_some_of_least {α : Type} (key : α → Nat) {test : α → Bool} {l : List α} {a : α}
    (ascends : l.Pairwise (key · < key ·)) (mem : a ∈ l) (ha : test a = true)
    (least : ∀ b ∈ l, test b = true → key a ≤ key b) : l.find? test = some a := by
  induction l with
  | nil => cases mem
  | cons b l ih =>
    obtain ⟨ahead, ascends⟩ := List.pairwise_cons.mp ascends
    rw [List.find?_cons]
    obtain rfl | mem := List.mem_cons.mp mem
    · rw [ha]
    · have passed : test b = false := Bool.eq_false_iff.mpr fun hb =>
        absurd (ahead a mem) (Nat.not_lt.mpr (least b List.mem_cons_self hb))
      rw [passed]
      exact ih ascends mem fun c hc => least c (List.mem_cons_of_mem b hc)

section Scan
variable {s : Part} {g : Segment} {position : Nat}

theorem mem_stationsFrom (n : Nat) :
    n ∈ List.range' position (Config.stationCount + 1 - position) ↔ position ≤ n ∧ n ≤ 30 := by
  rw [List.mem_range'_1, Config.stationCount]
  omega

/-- R164: the turn of the first station from the position on that is ABSENT or SILENT. -/
theorem Part.scanNext_some {n : Nat} (from' : position ≤ n) (last : n ≤ 30) (probed : (s.stationState g n).probed = true)
    (passed : ∀ m, position ≤ m → m < n → (s.stationState g m).probed = false) : s.scanNext g position = some n :=
  find?_eq_some_of_least id (List.pairwise_lt_range' ..) ((mem_stationsFrom n).mpr ⟨from', last⟩) probed
    fun m hm hp => Nat.not_lt.mp fun before => by
      simp [passed m ((mem_stationsFrom m).mp hm).1 before] at hp

/-- R165: no station is left to be probed. -/
theorem Part.scanNext_none (passed : ∀ n, position ≤ n → n ≤ 30 → (s.stationState g n).probed = false) :
    s.scanNext g position = none :=
  List.find?_eq_none.mpr fun n hn => by
    obtain ⟨from', last⟩ := (mem_stationsFrom n).mp hn
    simp [passed n from' last]

/-- R165: the end of the scan, with the engine READY: RUNNING, no scan position, and the MARK of cycle 0. -/
theorem Part.endScan_ready (ready : (s.engine g).state = .ready) : s.endScan g =
    ((s.updateControl g fun c => { c with state := .running, scanPosition := none }).setFlags g).updateEngine g fun _ =>
      (s.engine g).sendMark (s.control g).config 0 := by
  have mark : (s.seg g).engine.callMark (s.control g).config = (s.seg g).engine.sendMark (s.control g).config 0 :=
    Engine.callMark_ready _ ready
  cases g <;> exact congrArg (fun e => Part.updateEngine _ _ fun _ => e) mark

end Scan

/-! ### The end of a settling time (R96, R97) -/

theorem Part.updateEngine_updateEngine (s : Part) (g : Segment) (f k : Engine → Engine) :
    (s.updateEngine g f).updateEngine g k = s.updateEngine g fun e => k (f e) := by
  cases g <;> rfl

section Settling
variable {s : Part} {g : Segment} {left : Nat}

/-- R96: the engine, READY after a settling time. -/
def Engine.settled (e : Engine) (left : Nat) : Engine := { e.elapse left with state := .ready }

/-- R96, R97: a MARK that is owed goes out as the engine becomes READY. -/
theorem Part.endSettling_owed (settling : (s.engine g).state = .settle left) (owed : (s.engine g).markOwed = true) :
    s.endSettling g = s.updateEngine g fun _ => ((s.engine g).settled left).sendMark (s.control g).config 0 := by
  simp only [Part.endSettling, settling, owed, if_true, Part.updateEngine_updateEngine]
  rfl

/-- R96: a settling time outside SCANNING. -/
theorem Part.endSettling_quiet (settling : (s.engine g).state = .settle left) (free : (s.engine g).markOwed = false)
    (other : (s.control g).state ≠ .scanning) :
    s.endSettling g = s.updateEngine g fun _ => (s.engine g).settled left := by
  simp only [Part.endSettling, settling, free, Bool.false_eq_true, if_false]
  split
  · next scanning _ => exact absurd scanning other
  · rfl

/-- R97, R164: a settling time in SCANNING. -/
theorem Part.endSettling_scanning {position : Nat} (settling : (s.engine g).state = .settle left)
    (free : (s.engine g).markOwed = false) (scanning : (s.control g).state = .scanning)
    (turn : (s.control g).scanPosition = some position) :
    s.endSettling g = (s.updateEngine g fun _ => (s.engine g).settled left).scanFrom g (position + 1) := by
  simp only [Part.endSettling, settling, free, scanning, turn]
  rfl

end Settling

/-- Settles O38: by the MARK that is owed, the segment's state, and the station whose turn comes. -/
theorem settlingEndActs : Obligations.SettlingEndActs := by
  intro g s left awake settling e c quiet marked ready
  have ended {t : Part} (h : s.part.endSettling g = t) : exec (.settlingEnd g) s = .next (s.with t) :=
    (s.claim_awake (·.endSettling g) awake).trans (congrArg (fun t => Host.Outcome.next (s.with t)) h)
  have same (n : Nat) : ready.stationState g n = s.part.stationState g n := by
    simp [Part.stationState, ready]
  refine ⟨fun owed => ended (Part.endSettling_owed settling owed),
    fun free other => ended (Part.endSettling_quiet settling free other),
    fun position free scanning turn => ⟨fun n after last probed passed => ?_, fun passed => ?_⟩⟩
  · refine ended ((Part.endSettling_scanning settling free scanning turn).trans ?_)
    have found : ready.scanNext g (position + 1) = some n :=
      Part.scanNext_some after last (same n ▸ probed) fun m hm before => same m ▸ passed m hm before
    exact (by rw [Part.scanFrom, found] : ready.scanFrom g (position + 1) = _)
  · refine ended ((Part.endSettling_scanning settling free scanning turn).trans ?_)
    have none : ready.scanNext g (position + 1) = none :=
      Part.scanNext_none fun n hn last => same n ▸ passed n hn last
    have ends : ready.scanFrom g (position + 1) = ready.endScan g := by rw [Part.scanFrom, none]
    refine ends.trans ((Part.endScan_ready (by rw [Part.updateEngine_engine])).trans ?_)
    cases g <;> rfl

end Sys2Proof.Machine
end

section
/-! SUPPORT. The cycle step (R80 to R85). -/

namespace Sys2Proof.Machine

/-! ### The cycle step (R80 to R85) -/

/-- R81: the freshness check of a LIVE record. -/
theorem Record.outlived_iff (r : Record) : r.outlived = true ↔
    r.state = .live ∧ (r.kind = .input ∨ (r.kind = .output ∧ r.period ≠ 0)) ∧
      ∃ limit, r.freshnessLimit = some limit ∧ limit < min 255 (r.age + 1) := by
  simp [Record.outlived, nextAge, freshnessApplies_iff, Option.any_eq_true, and_assoc]

theorem RecordState.served_iff (state : RecordState) :
    state.served = true ↔ state = .pending ∨ state = .live ∨ state = .stale := by
  cases state <;> simp [RecordState.served]

theorem RecordKind.not_outputClass_iff (kind : RecordKind) : (!kind.outputClass) = true ↔ kind = .input := by
  cases kind <;> simp [RecordKind.outputClass]

/-- R82: which records are newly due. -/
theorem Part.newlyDue_iff (s : Part) (g : Segment) (n : Nat) (r : Record) : s.newlyDue g n r = true ↔
    r.segment = g ∧ (r.state = .pending ∨ r.state = .live ∨ r.state = .stale) ∧
      s.stationState g r.station = .present ∧ (s.engine g).queued n = false ∧
      (r.countdown = some 0 ∨ (r.kind ≠ .input ∧ r.dirty = true) ∨ (r.kind = .guarded ∧ r.guardPhase ≠ .closed)) := by
  simp [Part.newlyDue, RecordState.served_iff, RecordKind.outputClass_iff, Part.present_iff, and_assoc, or_assoc]

/-- R80: age and countdown after a cycle step. -/
def Record.stepped (r : Record) : Record :=
  { r with age := nextAge r.age, countdown := nextCountdown r.period r.countdown }

/-- R81: a record that outlives its limit. -/
theorem stepVerdict_outlived (n : Nat) {r : Record} (h : r.outlived = true) :
    stepVerdict n r = ({ r.stepped with state := .stale }, [.stale]) :=
  if_pos h

/-- R80: a record that does not. -/
theorem stepVerdict_fresh (n : Nat) {r : Record} (h : r.outlived = false) : stepVerdict n r = (r.stepped, []) :=
  if_neg (by simp [h])

/-- R85: the rebuilt queue, the output class before INPUT. -/
theorem Engine.rebuild_append (e : Engine) (outputs inputs : List Nat) : e.rebuild (outputs ++ inputs) = { e with
    active := e.active.map (fun q => ⟨q.slot, true⟩) ++ e.held.map (fun n => ⟨n, true⟩) ++
      outputs.map (fun n => ⟨n, false⟩) ++ inputs.map (fun n => ⟨n, false⟩)
    held := []
    cycleClosed := false
    probeTaken := false
    stepsDue := e.stepsDue - 1 } := by
  simp [Engine.rebuild]

/-- R26, R79: a cycle step whose turn has come. -/
theorem Part.takeStep_ready {s : Part} {g : Segment} (steps : (s.engine g).stepsDue ≠ 0)
    (taken : (s.engine g).toTable = []) (done : (s.control g).teardownDone = true) : s.takeStep g =
      (s.forRecords (fun _ r => r.segment == g) stepVerdict).updateEngine g (·.rebuild (s.dueList g)) :=
  if_pos ⟨steps, taken, done⟩

theorem Control.teardownDone_iff (c : Control) :
    c.teardownDone = true ↔ c.stationTeardowns = 0 ∧ c.recordTeardowns = [] := by
  simp [Control.teardownDone]

/-- A claim on an engine touches nothing on the buses. -/
theorem Part.updateEngine_sameBus (s : Part) (g : Segment) (f : Engine → Engine) : s.SameBus (s.updateEngine g f) := by
  simp [Part.SameBus]

/-- R81, R175: the lists gain the records that become STALE. -/
theorem Part.stepped_listsGain (s : Part) (g : Segment) :
    s.ListsGain (s.forRecords (fun _ r => r.segment == g) stepVerdict) fun _ r => r.segment = g ∧ r.outlived = true := by
  refine s.forRecords_listsGain _ _ _ (fun n r => ?_) (fun n r => ?_) fun n r _ _ => ?_ <;>
    cases h : r.outlived <;> simp [stepVerdict, h]

/-- Settles O37: what `stepVerdict` makes of each record, and the queue that `Engine.rebuild` makes of the slots due. -/
theorem cycleStepActs : Obligations.CycleStepActs := by
  intro g s awake steps taken stations records e outlived due
  have done := (s.part.control g).teardownDone_iff.mpr ⟨stations, records⟩
  let u := s.part.forRecords (fun _ r => r.segment == g) stepVerdict
  refine ⟨u.updateEngine g (·.rebuild (s.part.dueList g)),
    s.part.slotsWhere fun n r => s.part.newlyDue g n r && r.kind.outputClass,
    s.part.slotsWhere fun n r => s.part.newlyDue g n r && !r.kind.outputClass,
    (s.claim_awake (·.takeStep g) awake).trans
      (congrArg (fun t => Host.Outcome.next (s.with t)) (Part.takeStep_ready steps taken done)),
    fun n r hr segment => ?_, fun n other => ?_, fun p => ?_, ⟨s.part.sorted_slotsWhere _, fun n => ?_⟩,
    ⟨s.part.sorted_slotsWhere _, fun n => ?_⟩, ?_, ?_, ?_, fun h hg => ?_, ?_, ?_⟩
  · have stepped : (u.updateEngine g (·.rebuild (s.part.dueList g))).record n =
        some ((stepVerdict n r).1.withReasons (stepVerdict n r).2) := by
      simp [u, Part.forRecords_record, hr, segment]
    rw [stepped]
    refine ⟨fun h => ?_, fun h => ?_⟩
    · rw [stepVerdict_outlived n (r.outlived_iff.mpr h)]
      rfl
    · rw [stepVerdict_fresh n (Bool.eq_false_iff.mpr (mt r.outlived_iff.mp h)), Record.withReasons_nil]
      rfl
  · rw [Part.updateEngine_record, Part.forRecords_record]
    rcases hr : s.part.record n with _ | r
    · rfl
    · simp [other r hr]
  · rw [Part.updateEngine_port]
    simpa only [Record.outlived_iff] using s.part.stepped_listsGain g p
  · simp only [Part.mem_slotsWhere, Bool.and_eq_true, Part.newlyDue_iff, RecordKind.outputClass_iff]
    rfl
  · simp only [Part.mem_slotsWhere, Bool.and_eq_true, Part.newlyDue_iff, RecordKind.not_outputClass_iff]
    rfl
  · rw [Part.updateEngine_engine, Part.forRecords_engine, Part.dueList]
    exact e.rebuild_append ..
  · simp [u]
  · simp [u]
  · rw [Part.updateEngine_seg_ne _ _ _ _ hg, Part.forRecords_seg]
  · exact Part.SameBus.trans (t := u) ⟨rfl, rfl, rfl, rfl, rfl, rfl, rfl⟩ (u.updateEngine_sameBus g _)
  · intro p
    rw [Part.updateEngine_port]
    exact s.part.forRecords_flagged _ _ p

end Sys2Proof.Machine
end

section
/-! SUPPORT. The start of the head record's exchange (R88 to R91, R122), and the starts of PROBEs (R94, R164). -/

namespace Sys2Proof.Machine

/-! ### Whether an exchange may start, and whether it fits (R88, R91) -/

section Fits
variable {s : Part} {g : Segment} {elapsed left : Nat}

/-- R88, R94: when a READY engine of a RUNNING segment may start an exchange or a PROBE. -/
theorem Part.mayStart_of (ready : (s.engine g).state = .ready) (running : (s.control g).state = .running)
    (owed : (s.engine g).markOwed = false) (steps : (s.engine g).stepsDue = 0) (taken : (s.engine g).toTable = [])
    (stations : (s.control g).stationTeardowns = 0) (records : (s.control g).recordTeardowns = [])
    (isOpen : (s.engine g).cycleClosed = false) : s.mayStart g = true := by
  simp [Part.mayStart, ready, running, owed, steps, taken, Control.teardownDone, stations, records, isOpen]

theorem Engine.timeLeft_some {e : Engine} (timer : e.cycleTimer = some left) (inTime : elapsed ≤ left) :
    e.timeLeft elapsed = some (left - elapsed) := by
  simp [Engine.timeLeft, timer, inTime]

/-- R88, R91: the head of the active part, by whether its reservation fits the time left. -/
theorem Part.considerHead_eq {q : QueueEntry} {rest : List QueueEntry} {r : Record} {k : ExchangeKind}
    (head : (s.engine g).active = q :: rest) (timer : (s.engine g).cycleTimer = some left) (inTime : elapsed ≤ left)
    (hr : s.record q.slot = some r) (hk : r.nextExchange = some k) : s.considerHead g elapsed =
      if (s.control g).config.reservation k r.length ≤ left - elapsed then s.startHead g elapsed q.slot r k
      else s.updateEngine g fun e => { e.elapse elapsed with cycleClosed := true } := by
  simp [Part.considerHead, head, Engine.timeLeft_some timer inTime, hr, hk]

/-- R94: a PROBE, by whether it fits the time left. -/
theorem Part.considerProbe_eq {n : Nat} (choice : s.probeChoice g = some n) (timer : (s.engine g).cycleTimer = some left)
    (inTime : elapsed ≤ left) : s.considerProbe g elapsed =
      if (s.control g).config.reservation .probe 0 ≤ left - elapsed then
        s.updateEngine g fun e => { (e.elapse elapsed).startProbe (s.control g).config n with
          probeTaken := true
          probeCursor := nextStation n }
      else s.updateEngine g fun e => { e.elapse elapsed with cycleClosed := true } := by
  simp [Part.considerProbe, choice, Engine.timeLeft_some timer inTime]

end Fits

/-! ### The record whose exchange starts (R89, R90, R122) -/

/-- R89: the exchange that follows from the record as it stands. -/
theorem Record.nextExchange_of {r : Record} {k : ExchangeKind}
    (h : (r.kind = .input ∧ k = .fetch) ∨ (r.kind = .output ∧ k = .store) ∨
      (r.kind = .guarded ∧ ((r.guardPhase = .closed ∧ r.dirty = true ∧ k = .stage) ∨
        (r.guardPhase = .stage ∧ k = .stage) ∨ (r.guardPhase = .verify ∧ k = .verify) ∨
        (r.guardPhase = .commit ∧ k = .commit) ∨ (r.guardPhase = .cancel ∧ k = .cancel)))) :
    r.nextExchange = some k := by
  rcases h with ⟨kind, rfl⟩ | ⟨kind, rfl⟩ | ⟨kind, ⟨phase, dirty, rfl⟩ | ⟨phase, rfl⟩ | ⟨phase, rfl⟩ | ⟨phase, rfl⟩ |
    ⟨phase, rfl⟩⟩
  case inr.inr.inl => simp [Record.nextExchange, kind, phase, dirty]
  all_goals simp [Record.nextExchange, *]

/-- R8, R45, R122: the record after the start of its exchange, by its kind and its guard phase. -/
theorem Record.started_eq (r : Record) : r.started =
    if r.kind = .output then { r with dirty := false, rewritten := false }
    else if r.kind = .guarded ∧ r.guardPhase = .closed then r.openWrite
    else r := by
  cases hk : r.kind <;> simp [Record.started, hk]

theorem Record.started_value (r : Record) : r.started.value = r.value := by
  unfold Record.started
  split
  · rfl
  · rfl
  · split <;> rfl

theorem ExchangeKind.guarded_iff (k : ExchangeKind) :
    k.guarded = true ↔ k = .stage ∨ k = .verify ∨ k = .commit ∨ k = .cancel := by
  cases k <;> simp [ExchangeKind.guarded]

/-- R61, R90: the token of a guarded frame is the record's. -/
theorem Part.frameToken_own (s : Part) {r : Record} {t : Nat} (h : r.guardToken = some t) : s.frameToken r = t := by
  simp [Part.frameToken, h]

/-- R61: the token of a CANCEL whose record holds none is free, in the range of tokens (log 30). -/
theorem Part.frameToken_free (s : Part) {r : Record} (h : r.guardToken = none) :
    1 ≤ s.frameToken r ∧ s.frameToken r ≤ 255 := by
  simp only [Part.frameToken, h]
  omega

/-! ### The frame (R57, R58, R61) -/

/-- R57, R58: the bytes of a master frame. -/
theorem masterFrame_eq (k : ExchangeKind) (sequenceBit : Bool) (station object : Nat) (payload : List Byte) :
    masterFrame k sequenceBit station object payload =
      ([headerByte k sequenceBit, BitVec.ofNat 8 station, BitVec.ofNat 8 object, BitVec.ofNat 8 payload.length] ++
        payload) ++
        [(check ([headerByte k sequenceBit, BitVec.ofNat 8 station, BitVec.ofNat 8 object,
            BitVec.ofNat 8 payload.length] ++ payload)).extractLsb' 8 8,
          (check ([headerByte k sequenceBit, BitVec.ofNat 8 station, BitVec.ofNat 8 object,
            BitVec.ofNat 8 payload.length] ++ payload)).extractLsb' 0 8] :=
  withCheck_eq _

/-- R58: the header byte of a master frame; bit 4 is the sequence bit of a STORE, bit 5 marks the guarded kinds. -/
theorem headerByte_eq (k : ExchangeKind) (sequenceBit : Bool) : headerByte k sequenceBit =
    match k with
    | .fetch => 0x02
    | .store => if sequenceBit then 0x13 else 0x03
    | .probe => 0x04
    | .stage => 0x25
    | .verify => 0x26
    | .commit => 0x27
    | .cancel => 0x28 := by
  cases k <;> cases sequenceBit <;> rfl

/-- R54, R90: an exchange starts, 10 bit times a character. -/
theorem Engine.startExchange_eq (e : Engine) (c : SegmentConfig) (x : Exchange) (frame : List Byte) :
    e.startExchange c x frame =
      { e with exchange := some x, state := .request (c.bits (10 * frame.length)), frame := frame } := by
  rw [Nat.mul_comm]
  rfl

/-- R75, R121: the exchange in flight of a record whose exchange has started. -/
theorem Record.exchangeFor_started (r : Record) (c : SegmentConfig) (n : Nat) (k : ExchangeKind) (token : Nat) :
    r.started.exchangeFor c n k token = {
      kind := k
      slot := some n
      station := r.station
      object := r.object
      length := r.length
      token := if k = .stage ∨ k = .verify ∨ k = .commit ∨ k = .cancel then some token else none
      owedCancel := decide (r.state = .retiring)
      reserveLeft := c.reservation k r.length } := by
  obtain ⟨-, -, -, -, station, object, length⟩ := (Record.fixed_eq_iff r.started r).mp r.started_fixed
  simp only [Record.exchangeFor, station, object, length, r.started_state, k.guarded_iff, beq_eq_decide]

/-- R90: the start of the exchange of a record, with the frame that goes on the line. -/
theorem Part.startHead_eq (s : Part) (g : Segment) (elapsed n : Nat) (r : Record) (k : ExchangeKind) :
    s.startHead g elapsed n r k = ((({ s with
        freeDraws := if (k = .stage ∨ k = .verify ∨ k = .commit ∨ k = .cancel) ∧ r.started.guardToken = none then
          s.freeDraws + 1 else s.freeDraws } : Part).withRecord n r.started).dequeue g n).updateEngine g fun e =>
      (e.elapse elapsed).startExchange (s.control g).config
        (r.started.exchangeFor (s.control g).config n k (s.frameToken r.started))
        (masterFrame k r.sequenceBit r.station r.object (r.started.payload k (s.frameToken r.started))) := by
  simp only [Part.startHead, Record.drawsToken, Bool.and_eq_true, k.guarded_iff, Option.isNone_iff_eq_none]

/-- Settles O39: by whether the reservation fits; the record, the exchange and the frame each by its own lemma. -/
theorem exchangeStartServesHead : Obligations.ExchangeStartServesHead := by
  intro g elapsed s q rest left r k e c awake ready running owed steps taken stations records isOpen head timer inTime hr
    kinds
  have may := Part.mayStart_of ready running owed steps taken stations records isOpen
  have considered := Part.considerHead_eq head timer inTime hr (Record.nextExchange_of kinds)
  have started {t : Part} (h : s.part.considerHead g elapsed = t) : exec (.exchangeStart g elapsed) s = .next (s.with t) := by
    refine (s.claim_awake (fun s => if s.mayStart g then s.considerHead g elapsed else s) awake).trans ?_
    rw [if_pos may, h]
  refine ⟨fun long => started (considered.trans (if_neg (Nat.not_le.mpr long))), fun fits => ?_⟩
  intro next r' guarded
  have hr' : r.started = r' := r.started_eq
  clear_value r'
  subst hr'
  refine ⟨s.part.frameToken r.started, fun t ht => s.part.frameToken_own ht, s.part.frameToken_free, ?_⟩
  intro payload byte body frame
  have hpayload : r.started.payload k (s.part.frameToken r.started) = payload := by
    cases k <;> simp only [Record.payload, payload, r.started_value]
  have hbyte : headerByte k r.sequenceBit = byte := headerByte_eq k r.sequenceBit
  have hframe : masterFrame k r.sequenceBit r.station r.object
      (r.started.payload k (s.part.frameToken r.started)) = frame := by
    rw [hpayload, masterFrame_eq, hbyte]
  refine started (considered.trans ((if_pos fits).trans ?_))
  rw [Part.startHead_eq, hframe, Record.exchangeFor_started]
  simp only [Engine.startExchange_eq]
  rfl

/-! ### The choice of the station to probe (R94) -/

/-- R94: the cursor's order is that of the distance from the cursor, 30 being followed by 1. -/
theorem probeOrder_ascends {cursor : Nat} (first : 1 ≤ cursor) (last : cursor ≤ 30) :
    (probeOrder cursor).Pairwise fun a b => (a + 30 - cursor) % 30 < (b + 30 - cursor) % 30 := by
  refine List.pairwise_append.mpr ⟨?_, ?_, fun a ha b hb => ?_⟩
  · refine (List.pairwise_lt_range' ..).imp_of_mem fun ha hb before => ?_
    rw [mem_stationsFrom] at ha hb
    omega
  · refine (List.pairwise_lt_range' ..).imp_of_mem fun ha hb before => ?_
    rw [List.mem_range'_1] at ha hb
    omega
  · rw [mem_stationsFrom] at ha
    rw [List.mem_range'_1] at hb
    omega

theorem mem_probeOrder_iff {cursor n : Nat} (first : 1 ≤ cursor) (last : cursor ≤ 30) :
    n ∈ probeOrder cursor ↔ 1 ≤ n ∧ n ≤ 30 := by
  rw [probeOrder, List.mem_append, mem_stationsFrom, List.mem_range'_1]
  omega

/-- R94: the first ABSENT or SILENT station from the cursor on. -/
theorem Part.probeChoice_some {s : Part} {g : Segment} {n : Nat} (cursor : 1 ≤ (s.engine g).probeCursor)
    (cursor' : (s.engine g).probeCursor ≤ 30) (first : 1 ≤ n) (last : n ≤ 30)
    (probed : (s.stationState g n).probed = true)
    (nearest : ∀ m, 1 ≤ m → m ≤ 30 → (s.stationState g m).probed = true →
      (n + 30 - (s.engine g).probeCursor) % 30 ≤ (m + 30 - (s.engine g).probeCursor) % 30) :
    s.probeChoice g = some n :=
  find?_eq_some_of_least (fun m => (m + 30 - (s.engine g).probeCursor) % 30) (probeOrder_ascends cursor cursor')
    ((mem_probeOrder_iff cursor cursor').mpr ⟨first, last⟩) probed fun m hm hp => by
      obtain ⟨first', last'⟩ := (mem_probeOrder_iff cursor cursor').mp hm
      exact nearest m first' last' hp

/-- R72: the reservation of a PROBE. -/
theorem SegmentConfig.reservation_probe (c : SegmentConfig) : c.reservation .probe 0 = c.bits (190 + c.replyWindow) := by
  obtain ⟨-, -, probe, -⟩ := reservationAndSettling.1 c.replyWindow 0
  rw [SegmentConfig.reservation, probe]

/-- R58: the frame of a PROBE. -/
theorem masterFrame_probe (n : Nat) :
    masterFrame .probe false n 0 [] = withCheck [0x4, BitVec.ofNat 8 n, 0, 0] := by
  rw [masterFrame, headerByte_eq]
  rfl

theorem withCheck_length (bytes : List Byte) : (withCheck bytes).length = bytes.length + 2 := by
  simp [withCheck_eq]

/-- R58, R61, R72: the PROBE of a station on the line. -/
theorem Engine.startProbe_eq (e : Engine) (c : SegmentConfig) (n : Nat) : e.startProbe c n = { e with
    exchange := some ⟨.probe, none, n, 0, 0, none, false, c.bits (190 + c.replyWindow)⟩
    state := .request (c.bits 60)
    frame := withCheck [0x4, BitVec.ofNat 8 n, 0, 0] } := by
  rw [Engine.startProbe, masterFrame_probe, Engine.startExchange_eq, withCheck_length, probeOf, c.reservation_probe]
  rfl

/-! ### The PROBE of the scan (R164, R165) -/

section ScanProbe
variable {s : Part} {g : Segment} {position : Nat} (scanning : (s.control g).state = .scanning)
  (turn : (s.control g).scanPosition = some position) (ready : (s.engine g).state = .ready)
  (done : (s.control g).teardownDone = true)
include scanning turn ready done

/-- R164: the PROBE of the first station that is left to be probed. -/
theorem Part.startScanProbe_some {n : Nat} (found : s.scanNext g position = some n) : s.startScanProbe g =
    (s.updateControl g fun c => { c with scanPosition := some n }).updateEngine g fun e =>
      e.startProbe (s.control g).config n := by
  simp only [Part.startScanProbe, scanning, turn, ready, done, found]

/-- R165: the end of the scan where none is left. -/
theorem Part.startScanProbe_none (passed : s.scanNext g position = none) : s.startScanProbe g = s.endScan g := by
  simp only [Part.startScanProbe, scanning, turn, ready, done, passed]

end ScanProbe

/-- Settles O40: the station that the cursor's search or the scan finds, and whether its PROBE fits. -/
theorem probesStart : Obligations.ProbesStart := by
  intro g s awake ready stations records e c probing
  refine ⟨fun elapsed left n running owed steps taken isOpen empty free timer inTime cursor cursor' first last probed
    nearest => ?_, fun position scanning turn => ?_⟩
  · have may := Part.mayStart_of ready running owed steps taken stations records isOpen
    have considered := Part.considerProbe_eq (Part.probeChoice_some cursor cursor' first last probed nearest) timer inTime
    have started {t : Part} (h : s.part.considerProbe g elapsed = t) :
        exec (.probeStart g elapsed) s = .next (s.with t) := by
      refine (s.claim_awake (fun s => if s.mayStart g && (s.engine g).active.isEmpty && !(s.engine g).probeTaken then
        s.considerProbe g elapsed else s) awake).trans ?_
      rw [if_pos (by simp [may, show (s.part.engine g).active = [] from empty,
        show (s.part.engine g).probeTaken = false from free]), h]
    simp only [SegmentConfig.reservation_probe, Engine.startProbe_eq] at considered
    exact ⟨fun fits => started (considered.trans (if_pos fits)),
      fun long => started (considered.trans (if_neg (Nat.not_le.mpr long)))⟩
  · have begun {t : Part} (h : s.part.startScanProbe g = t) : exec (.scanProbeStart g) s = .next (s.with t) :=
      (s.claim_awake (·.startScanProbe g) awake).trans (congrArg (fun t => Host.Outcome.next (s.with t)) h)
    have done := (s.part.control g).teardownDone_iff.mpr ⟨stations, records⟩
    refine ⟨fun n after last probed passed => ?_, fun passed => ?_⟩
    · have turned := Part.startScanProbe_some scanning turn ready done (Part.scanNext_some after last probed passed)
      simp only [Engine.startProbe_eq] at turned
      exact begun turned
    · have turned := Part.startScanProbe_none scanning turn ready done (Part.scanNext_none passed)
      refine begun (turned.trans ((Part.endScan_ready ready).trans ?_))
      rw [Engine.sendMark_eq]
      cases g <;> rfl

end Sys2Proof.Machine
end

section
/-! SUPPORT. How a reason is raised (R12, R174, R175), and the good outcomes: DATA to a FETCH and ACCEPT to a STORE (R105 to
R107). -/

namespace Sys2Proof.Machine

/-! ### Reasons -/

/-- R12: adding a reason puts that one into the set and takes none out. -/
theorem ReasonSet.has_add (s : ReasonSet) (x y : Reason) : (s.add y).has x = true ↔ s.has x = true ∨ x = y := by
  cases y <;> cases x <;> simp [ReasonSet.add, ReasonSet.has]

/-- R175: a claim's reasons join the set one after the other. -/
theorem ReasonSet.has_foldl_add (l : List Reason) (s : ReasonSet) (x : Reason) :
    (l.foldl ReasonSet.add s).has x = true ↔ s.has x = true ∨ x ∈ l := by
  induction l generalizing s with
  | nil => simp
  | cons y l ih => rw [List.foldl_cons, ih, ReasonSet.has_add, List.mem_cons, or_assoc]

/-- R52, R175: the reasons that a record holds after some are raised on it. -/
theorem Record.withReasons_has (r : Record) (raised : List Reason) (x : Reason) :
    (r.withReasons raised).reasons.has x = true ↔ r.reasons.has x = true ∨ (r.silentRetire = false ∧ x ∈ raised) := by
  cases hs : r.silentRetire <;> simp [Record.withReasons, hs, ReasonSet.has_foldl_add]

/-- R52, R175: a slot is put on a list where a reason is raised and silent retire is no. -/
theorem Record.notifies_iff (r : Record) (raised : List Reason) :
    r.notifies raised = true ↔ r.silentRetire = false ∧ raised ≠ [] := by
  simp [Record.notifies]

/-! ### The record put back (R175) -/

/-- R174: a slot that stands on a list joins it no second time. -/
theorem joinList_of_mem {list : List Nat} {n : Nat} (h : n ∈ list) : joinList list n = list :=
  if_pos (List.contains_iff_mem.mpr h)

/-- R175: a slot that does not stand on a list joins it at its tail. -/
theorem joinList_of_not_mem {list : List Nat} {n : Nat} (h : n ∉ list) : joinList list n = list ++ [n] :=
  if_neg (mt List.contains_iff_mem.mp h)

section Put
variable (s : Part) (n : Nat) (r : Record) (raised : List Reason)

/-- R174, R175: the owner's list gains the slot at its tail, once, where a reason is raised. -/
theorem Part.put_attention (p : Port) : ((s.put n r raised).port p).attention =
    if p = r.owner ∧ r.silentRetire = false ∧ raised ≠ [] ∧ n ∉ (s.port p).attention then (s.port p).attention ++ [n]
    else (s.port p).attention := by
  simp only [Part.put_port, Record.notifies_iff]
  by_cases listed : n ∈ (s.port p).attention
  · simp [listed, joinList_of_mem]
  · by_cases notified : (r.silentRetire = false ∧ raised ≠ []) ∧ p = r.owner
    · rw [if_pos notified, if_pos ⟨notified.2, notified.1.1, notified.1.2, listed⟩, joinList_of_not_mem listed]
    · rw [if_neg notified, if_neg fun ⟨owner, loud, raises, _⟩ => notified ⟨⟨loud, raises⟩, owner⟩]

theorem Part.put_sameBus : s.SameBus (s.put n r raised) := by
  unfold Part.put
  dsimp only
  split <;> simp [Part.SameBus]

theorem Part.put_flagged : s.PortsFlagged (s.put n r raised) fun _ => False := by
  have stored : s.PortsFlagged (s.withRecord n (r.withReasons raised)) fun _ => False :=
    .of_ports fun p => Part.withRecord_port ..
  unfold Part.put
  dsimp only
  split
  · exact (stored.trans (Part.updatePort_attention_flagged _ r.owner (joinList · n))).congr fun _ => or_self_iff
  · exact stored

end Put

/-! ### The good outcomes (R105 to R107) -/

/-- R135: only the exchanges of a guarded write are superseded. -/
theorem Record.supersedes_unguarded (r : Record) {x : Exchange} (h : x.kind.phase = none) : r.supersedes x = false :=
  (r.supersedes_eq_false_iff x).mpr fun phase hp => by simp [h] at hp

/-- Settles O45: what `Part.put` does, and what `Record.success` makes of the record of a FETCH and of a STORE. -/
theorem goodOutcomesApply : Obligations.GoodOutcomesApply := by
  refine ⟨fun r raised => ⟨_, r.withReasons_eq raised, r.withReasons_has raised⟩, fun s n r raised inTable => ?_, ?_⟩
  · intro t joins
    refine ⟨s.put_record n r raised inTable, fun m => s.put_record_ne n m r raised, fun p => ⟨fun h => ?_, fun h => ?_⟩,
      s.put_seg n r raised, s.put_sameBus n r raised, s.put_flagged n r raised⟩
    · exact (s.put_attention n r raised p).trans (if_pos h)
    · exact (s.put_attention n r raised p).trans (if_neg h)
  · intro g s o waiting n r awake first slot record present served u state good
    have done {q : Record} {l : List Reason} (unguarded : o.exchange.kind.phase = none)
        (h : r.success o.exchange.kind o.result = some ⟨q, r.state.goodReasons ++ l, .done⟩) :
        exec (.outcomeTaken g) s = .next (s.with (u.put n q (state ++ l))) := by
      have taken := exec_outcomeTaken_served awake first slot record present served (r.supersedes_unguarded unguarded)
        (Record.served_success h)
      rwa [Part.place_done, RecordState.goodReasons_eq] at taken
    refine ⟨fun payload fetch data => ?_, fun store accept => ?_⟩
    · exact done (fetch ▸ rfl) (fetch ▸ data ▸ rfl)
    · exact done (store ▸ rfl) (store ▸ accept ▸ rfl)

end Sys2Proof.Machine
end

section
/-! SUPPORT. The requests on a station (R151, R153, R154), and the departure of a station from PRESENT (R145). -/

namespace Sys2Proof.Machine

/-! ### Claims on the records of a station -/

theorem Record.onStation_iff (r : Record) (g : Segment) (k : Nat) :
    r.onStation g k = true ↔ r.segment = g ∧ r.station = k := by
  simp [Record.onStation]

theorem Part.forRecords_sameBus (s : Part) (test : Nat → Record → Bool) (f : Nat → Record → Verdict) :
    s.SameBus (s.forRecords test f) :=
  ⟨rfl, rfl, rfl, rfl, rfl, rfl, rfl⟩

theorem Part.setFlags_sameBus (s : Part) (g : Segment) : s.SameBus (s.setFlags g) :=
  ⟨rfl, rfl, rfl, rfl, rfl, rfl, rfl⟩

/-- R150: a claim on many records that sets the segment's flags. -/
theorem Part.forRecords_setFlags_flagged (s : Part) (test : Nat → Record → Bool) (f : Nat → Record → Verdict)
    (g : Segment) : s.PortsFlagged ((s.forRecords test f).setFlags g) (· = g) :=
  ((s.forRecords_flagged test f).trans (Part.setFlags_flagged _ g)).congr fun _ => iff_of_eq (false_or _)

/-- R175: a claim on many records that raises no reason puts no slot on a list. -/
theorem Part.forRecords_quiet_attention (s : Part) (test : Nat → Record → Bool) {f : Nat → Record → Verdict}
    (quiet : ∀ n r, (f n r).2 = []) (p : Port) : ((s.forRecords test f).port p).attention = (s.port p).attention := by
  simp [Part.forRecords_port, Part.slotsWhere, Record.notifies, quiet]

/-! ### The departure (R145) -/

/-- R145: a departure makes a LIVE record STALE. -/
theorem departureVerdict_of_live (e : Engine) (c : Condition) (n : Nat) {r : Record} (h : r.state = .live) :
    departureVerdict e c n r = ({ r with state := .stale, condition := c }, [.stale]) := by
  simp [departureVerdict, h]

/-- R145: a departure gives a PENDING or STALE record its condition. -/
theorem departureVerdict_of_waiting (e : Engine) (c : Condition) (n : Nat) {r : Record}
    (h : r.state = .pending ∨ r.state = .stale) : departureVerdict e c n r = ({ r with condition := c }, []) := by
  rcases h with h | h <;> simp [departureVerdict, h]

/-- R31, R34, R145: a departure leaves a HALTED or RETIRED record alone. -/
theorem departureVerdict_of_resting (e : Engine) (c : Condition) (n : Nat) {r : Record}
    (h : r.state = .halted ∨ r.state = .retired) : departureVerdict e c n r = (r, []) := by
  rcases h with h | h <;> simp [departureVerdict, h]

/-- R50, R145: a departure retires a RETIRING record whose owed CANCEL stands in the Due Queue. -/
theorem departureVerdict_of_retiring (e : Engine) (c : Condition) (n : Nat) {r : Record} (h : r.state = .retiring) :
    departureVerdict e c n r = if e.queued n = true ∧ r.silentRetire = false then
      ({ r with state := .retired, condition := .cancelUnconfirmed }, [.retired]) else (r, []) := by
  simp [departureVerdict, h]

theorem departureVerdict_silentRetire (e : Engine) (c : Condition) (n : Nat) (r : Record) :
    (departureVerdict e c n r).1.silentRetire = r.silentRetire := by
  unfold departureVerdict
  split
  case h_6 => split <;> rfl
  all_goals rfl

/-- R145: the records on which a departure raises a reason. -/
theorem departureVerdict_raises_iff (e : Engine) (c : Condition) (n : Nat) (r : Record) :
    (departureVerdict e c n r).2 ≠ [] ↔
      r.state = .live ∨ (r.state = .retiring ∧ r.silentRetire = false ∧ e.queued n = true) := by
  cases hs : r.state
  case live => simp [departureVerdict_of_live e c n hs]
  case pending => simp [departureVerdict_of_waiting e c n (Or.inl hs)]
  case stale => simp [departureVerdict_of_waiting e c n (Or.inr hs)]
  case halted => simp [departureVerdict_of_resting e c n (Or.inl hs)]
  case retired => simp [departureVerdict_of_resting e c n (Or.inr hs)]
  case retiring =>
    rw [departureVerdict_of_retiring e c n hs]
    split
    · next owed => simp [owed]
    · next free =>
      refine iff_of_false (fun h => h rfl) ?_
      rintro (live | ⟨-, silent, queued⟩)
      · cases live
      · exact free ⟨queued, silent⟩

theorem Part.departRecords_record (s : Part) (g : Segment) (k : Nat) (c : Condition) (n : Nat) :
    (s.departRecords g k c).record n = (s.record n).map fun r => if r.segment = g ∧ r.station = k then
      (departureVerdict (s.engine g) c n r).1.withReasons (departureVerdict (s.engine g) c n r).2 else r := by
  simp only [Part.departRecords, Part.updateEngine_record, Part.forRecords_record, Record.onStation_iff]

theorem Part.departRecords_port (s : Part) (g : Segment) (k : Nat) (c : Condition) (p : Port) :
    (s.departRecords g k c).port p =
      (s.forRecords (fun _ r => r.onStation g k) (departureVerdict (s.engine g) c)).port p := by
  rw [Part.departRecords, Part.updateEngine_port]

/-- Settles O22: what `departureVerdict` makes of each record in its state, and the removal from the queue. -/
theorem departureActsOnRecords : Obligations.DepartureActsOnRecords := by
  intro s g k c
  refine ⟨fun n => ?_, fun p => ?_, ⟨fun n => (s.record n).any fun r => r.onStation g k, fun n => ?_, ?_⟩, ?_, ?_,
    fun h hg => ?_, ?_, fun p => ?_⟩
  · rw [Part.departRecords_record]
    congr 1
    funext r
    beta_reduce
    split
    · split
      case h_1 hs => rw [departureVerdict_of_live _ c n hs]
      case h_2 hs => rw [departureVerdict_of_waiting _ c n (Or.inl hs), Record.withReasons_nil]
      case h_3 hs => rw [departureVerdict_of_waiting _ c n (Or.inr hs), Record.withReasons_nil]
      case h_4 hs => rw [departureVerdict_of_resting _ c n (Or.inl hs), Record.withReasons_nil]
      case h_5 hs => rw [departureVerdict_of_resting _ c n (Or.inr hs), Record.withReasons_nil]
      case h_6 hs =>
        rw [departureVerdict_of_retiring _ c n hs]
        split
        · rfl
        · exact Record.withReasons_nil r
    · rfl
  · rw [Part.departRecords_port]
    refine s.forRecords_listsGain _ _ _ (fun n r => ?_) (fun n r => departureVerdict_silentRetire _ c n r)
      (fun n r _ _ => ?_) p
    · exact ((Record.fixed_eq_iff _ _).mp (departureVerdict_fixed _ c n r)).2.1
    · rw [Record.onStation_iff, departureVerdict_raises_iff, and_assoc]
  · simp only [Option.any_eq_true, Record.onStation_iff]
  · rw [Part.departRecords, Part.updateEngine_engine, Part.forRecords_engine]
  · rw [Part.departRecords, Part.updateEngine_stations, Part.forRecords_seg]
  · rw [Part.departRecords, Part.updateEngine_control, Part.forRecords_control]
  · rw [Part.departRecords, Part.updateEngine_seg_ne _ _ _ _ hg, Part.forRecords_seg]
  · exact (s.forRecords_sameBus _ _).trans (Part.updateEngine_sameBus _ g _)
  · rw [Part.departRecords_port]
    exact s.forRecords_flagged _ _ p

/-! ### The station that a request names (R151) -/

/-- R201: a segment's code names it. -/
theorem segmentOf_segmentCode (g : Segment) : segmentOf (segmentCode g) = some g := by
  cases g <;> rfl

/-- R201: a byte names no segment, or is the code of the one that it names. -/
theorem segmentOf_cases (x : Byte) : (x ≠ 0 ∧ x ≠ 1) ∨ ∃ g, x = segmentCode g := by
  by_cases h0 : x = 0
  · exact Or.inr ⟨.a, h0⟩
  · by_cases h1 : x = 1
    · exact Or.inr ⟨.b, h1⟩
    · exact Or.inl ⟨h0, h1⟩

theorem stationArgs_noSegment {x : Byte} (y : Byte) (h : x ≠ 0 ∧ x ≠ 1) : stationArgs [x, y] = .error (.badField 0) := by
  simp [stationArgs, (segmentOf_eq_none_iff x).mpr h]

theorem stationArgs_noStation (g : Segment) {y : Byte} (h : y = 0 ∨ 30 < y.toNat) :
    stationArgs [segmentCode g, y] = .error (.badField 1) := by
  simp only [stationArgs, segmentOf_segmentCode, byte_toNat_eq_zero_iff, if_pos h]

theorem stationArgs_named (g : Segment) {y : Byte} (first : 1 ≤ y.toNat) (last : y.toNat ≤ 30) :
    stationArgs [segmentCode g, y] = .ok (g, y.toNat) := by
  have inRange : ¬(y.toNat = 0 ∨ 30 < y.toNat) := by omega
  simp [stationArgs, segmentOf_segmentCode, inRange]

section Named
variable {p : Port} {s : State} {f : RequestFrame} {t : Part} {status : Status} {results : List Byte}

/-- A request that the checks of R151 refuse changes nothing. -/
theorem Part.onStation_refused {s : Part} {a : Answer} (h : stationArgs f.args = .error a)
    (run : Segment → Nat → Station → Part × Answer) : s.onStation f run = (s, a) := by
  simp [Part.onStation, h]

/-- A request that passes them runs on the entry of its station. -/
theorem Part.onStation_named {s : Part} {g : Segment} {y : Byte} {e : Station} (args : f.args = [segmentCode g, y])
    (first : 1 ≤ y.toNat) (last : y.toNat ≤ 30) (entry : s.station g y.toNat = some e)
    (run : Segment → Nat → Station → Part × Answer) : s.onStation f run = run g y.toNat e := by
  simp [Part.onStation, args, stationArgs_named g first last, entry]

theorem exec_stationQuery (h : s.part.Standing p .stationQuery f) (ho : s.part.ownQuery f = (t, ⟨status, results⟩)) :
    exec (.stationQuery p) s = .next (s.with (t.answer p f status results)) :=
  s.claim_answered p _ f (fun s => s.ownQuery) h ho

theorem exec_stationBar (h : s.part.Standing p .stationBar f) (ho : s.part.ownBar f = (t, ⟨status, results⟩)) :
    exec (.stationBar p) s = .next (s.with (t.answer p f status results)) :=
  s.claim_answered p _ f (fun s => s.ownBar) h ho

theorem exec_stationUnbar (h : s.part.Standing p .stationUnbar f) (ho : s.part.ownUnbar f = (t, ⟨status, results⟩)) :
    exec (.stationUnbar p) s = .next (s.with (t.answer p f status results)) :=
  s.claim_answered p _ f (fun s => s.ownUnbar) h ho

end Named

/-- What each of the three requests on a station answers where the checks of R151 refuse it. -/
theorem exec_stationRequest_refused {p : Port} {s : State} {f : RequestFrame} {c : Instr} {k : RequestCode}
    (hc : (c, k) ∈ [(Instr.stationQuery p, RequestCode.stationQuery), (.stationBar p, .stationBar),
      (.stationUnbar p, .stationUnbar)])
    (hs : s.part.Standing p k f) {offset : Byte} (h : stationArgs f.args = .error (.badField offset)) :
    exec c s = .next (s.with (s.part.answer p f .badField [offset])) := by
  simp only [List.mem_cons, Prod.mk.injEq, List.not_mem_nil, or_false] at hc
  obtain ⟨rfl, rfl⟩ | ⟨rfl, rfl⟩ | ⟨rfl, rfl⟩ := hc
  · exact exec_stationQuery hs (Part.onStation_refused h _)
  · exact exec_stationBar hs (Part.onStation_refused h _)
  · exact exec_stationUnbar hs (Part.onStation_refused h _)

/-- R154: the results of STATION_QUERY for the station that a byte names. -/
theorem Part.stationResults_named (s : Part) (g : Segment) (y : Byte) (e : Station) :
    s.stationResults g y.toNat e = [segmentCode g, y, e.state.code] ++
      (match e.identity with
        | some i => 1#8 :: identityBytes i
        | none => [0, 0, 0, 0, 0, 0]) ++
      [BitVec.ofNat 8 e.silence, BitVec.ofNat 8 (s.refCount g y.toNat / 256), BitVec.ofNat 8 (s.refCount g y.toNat)] := by
  rcases hi : e.identity with _ | i <;>
    simp [Part.stationResults, num8, be16, optional, hi, List.replicate]

/-- Settles O23: the checks of R151 by the two bytes of the arguments, and the entry's results. -/
theorem stationQueryAnswers : Obligations.StationQueryAnswers := by
  intro p s f x y args
  refine ⟨fun c k hc hs => ⟨fun hx => ?_, fun hx hy => ?_⟩, fun g e hs hx first last entry => ?_⟩
  · exact exec_stationRequest_refused hc hs (args ▸ stationArgs_noSegment y hx)
  · obtain ⟨hx0, hx1⟩ | ⟨g, rfl⟩ := segmentOf_cases x
    · exact absurd hx (not_or.mpr ⟨hx0, hx1⟩)
    · exact exec_stationRequest_refused hc hs (args ▸ stationArgs_noStation g hy)
  · subst hx
    have reported := exec_stationQuery hs (Part.onStation_named args first last entry _)
    rw [Part.stationResults_named] at reported
    exact reported

/-! ### STATION_BAR and STATION_UNBAR (R151, R153) -/

/-- R151: what STATION_BAR makes of a record of an ABSENT or SILENT station. -/
theorem barVerdict_eq (n : Nat) (r : Record) : barVerdict n r =
    (if r.state = .pending ∨ r.state = .stale then { r with condition := .stationBarred } else r, []) := by
  cases hs : r.state <;> simp [barVerdict, hs]

/-- R153: what STATION_UNBAR makes of a record of the station. -/
theorem unbarVerdict_eq (n : Nat) (r : Record) : unbarVerdict n r =
    (if (r.state = .pending ∨ r.state = .stale) ∧ r.condition = .stationBarred then
      { r with condition := .stationAbsent } else r, []) := by
  cases hs : r.state <;> simp [unbarVerdict, hs]

/-- R26: a claim on the records of a station that changes those meeting a condition, and raises no reason. -/
theorem Part.forRecords_onStation_becomes {s : Part} {g : Segment} {k : Nat} {f : Nat → Record → Verdict}
    {changes : Record → Prop} [DecidablePred changes] {after : Record → Record}
    (h : ∀ n r, f n r = (if changes r then after r else r, [])) :
    s.RecordsBecome (s.forRecords (fun _ r => r.onStation g k) f) fun _ r =>
      if r.segment = g ∧ r.station = k ∧ changes r then after r else r := by
  intro n
  rw [Part.forRecords_record]
  congr 1
  funext r
  beta_reduce
  rw [h]
  by_cases here : r.segment = g ∧ r.station = k
  · simp [(r.onStation_iff g k).mpr here, here]
  · have away : ¬(r.segment = g ∧ r.station = k ∧ changes r) := fun ⟨hg, hk, _⟩ => here ⟨hg, hk⟩
    rw [if_neg (mt (r.onStation_iff g k).mp here), if_neg away]

/-- R150, R151, R153: a station's entry is replaced, its records take a condition without a notice, and the flags are set. -/
theorem Part.withStation_told {s : Part} {g : Segment} {k : Nat} (new : Station) {f : Nat → Record → Verdict}
    {changes : Record → Prop} [DecidablePred changes] {after : Record → Record}
    (h : ∀ n r, f n r = (if changes r then after r else r, [])) {t : Part}
    (ht : t = ((s.withStation g k new).forRecords (fun _ r => r.onStation g k) f).setFlags g) :
    s.RecordsBecome t (fun _ r => if r.segment = g ∧ r.station = k ∧ changes r then after r else r) ∧
      (∀ q, (t.port q).attention = (s.port q).attention) ∧ (∀ h, t.seg h = (s.withStation g k new).seg h) ∧
      s.SameBus t ∧ s.PortsFlagged t (· = g) := by
  subst ht
  refine ⟨fun n => ?_, fun q => ?_, fun h => ?_, ?_, fun q => ?_⟩
  · rw [Part.setFlags_record, Part.forRecords_onStation_becomes h n, Part.withStation_record]
  · rw [Part.setFlags_attention, Part.forRecords_quiet_attention _ _ fun n r => by rw [h], Part.withStation_port]
  · rw [Part.setFlags_seg, Part.forRecords_seg]
  · exact ((s.withStation_sameBus g k new).trans (Part.forRecords_sameBus ..)).trans (Part.setFlags_sameBus ..)
  · simpa only [Part.withStation_port] using Part.forRecords_setFlags_flagged (s.withStation g k new) _ f g q

/-- Settles O24: `Part.barStation` by the state of the entry. -/
theorem stationBarActs : Obligations.StationBarActs := by
  intro p s f g y e hs args first last entry k barred
  have accepted {t : Part} (h : s.part.barStation g k e = t) :
      exec (.stationBar p) s = .next (s.with (t.answer p f .done [])) :=
    exec_stationBar hs ((Part.onStation_named args first last entry _).trans (congrArg (·, Answer.bare .done) h))
  refine ⟨fun he => accepted (by simp [Part.barStation, he]), fun he => accepted (by simp [Part.barStation, he, barred]),
    fun he => ⟨(barred.forRecords (fun _ r => r.onStation g k) barVerdict).setFlags g, ?_,
      Part.withStation_told _ barVerdict_eq rfl⟩⟩
  rcases he with he | he <;> exact accepted (by simp [Part.barStation, he, barred])

/-- Settles O25: `Part.unbarStation` for a BARRED station. -/
theorem stationUnbarActs : Obligations.StationUnbarActs := by
  intro p s f g y e hs args first last entry k absent
  have answered {t : Part} {status : Status}
      (h : (if e.state = .barred then (s.part.unbarStation g k e, Answer.bare .done) else (s.part, .bare .wrongState)) =
        (t, ⟨status, []⟩)) : exec (.stationUnbar p) s = .next (s.with (t.answer p f status [])) :=
    exec_stationUnbar hs ((Part.onStation_named args first last entry _).trans h)
  refine ⟨fun he => answered (if_neg he), fun he => ⟨s.part.unbarStation g k e, answered (if_pos he), ?_⟩⟩
  have told := Part.withStation_told (s := s.part) (g := g) (k := k) _ unbarVerdict_eq
    (rfl : s.part.unbarStation g k e = _)
  simpa only [and_assoc] using told

end Sys2Proof.Machine
end

section
/-! SUPPORT. The outcomes at the Station Directory: the silence counter (R143, R144), attach and reattach (R147 to R149). -/

namespace Sys2Proof.Machine

/-! ### The outcome of a record exchange (R143, R144) -/

/-- An entry put back as it is. -/
theorem Part.withStation_self {s : Part} {g : Segment} {k : Nat} {e : Station} (h : s.station g k = some e) :
    s.withStation g k e = s := by
  unfold Part.station at h
  split at h
  · cases h
  · next hk =>
    obtain ⟨hlt, he⟩ := List.getElem?_eq_some_iff.mp h
    rw [Part.withStation, if_neg hk, ← he, List.set_getElem_self]
    cases g <;> rfl

@[simp] theorem Part.updateEngine_refCount (s : Part) (g h : Segment) (f : Engine → Engine) (k : Nat) :
    (s.updateEngine g f).refCount h k = s.refCount h k := by
  simp [Part.refCount]

section Result
variable {s : Part} {g : Segment} {o : ExchangeOutcome} {e : Station} (entry : s.station g o.exchange.station = some e)
include entry

/-- R146: the outcome of a record exchange leaves a station alone that is not PRESENT. -/
theorem Part.stationResult_away (away : e.state ≠ .present) : s.stationResult g o = s := by
  simp [Part.stationResult, entry, away]

/-- R143: an outcome that does not bring the counter to the limit moves the counter. -/
theorem Part.stationResult_counts (present : e.state = .present) {count : Nat}
    (counted : o.result.silenceAfter e.silence = count)
    (below : o.result = .timeout → count < (s.control g).config.silenceLimit) :
    s.stationResult g o = s.withStation g o.exchange.station { e with silence := count } := by
  subst counted
  have stays : ¬(o.result = .timeout ∧ (s.control g).config.silenceLimit ≤ o.result.silenceAfter e.silence) :=
    fun ⟨timeout, reached⟩ => absurd (below timeout) (Nat.not_lt.mpr reached)
  simp only [Part.stationResult, entry, present, if_true, if_neg stays]

/-- R144: the TIMEOUT that brings the counter to the limit. -/
theorem Part.stationResult_silences (present : e.state = .present) (timeout : o.result = .timeout)
    (reached : (s.control g).config.silenceLimit ≤ e.silence + 1) :
    s.stationResult g o = s.silenceStation g o.exchange.station e (e.silence + 1) := by
  simp only [Part.stationResult, entry, present, if_true, timeout, ExchangeResult.silenceAfter, reached, and_self]

end Result

/-- R143: the results that clear the counter. -/
theorem ExchangeResult.silenceAfter_clears {result : ExchangeResult} (count : Nat) (timeout : result ≠ .timeout)
    (station : result ≠ .error .wrongStation) : result.silenceAfter count = 0 := by
  unfold ExchangeResult.silenceAfter
  split
  · exact absurd rfl timeout
  · exact absurd rfl station
  all_goals rfl

theorem ExchangeOutcome.isProbe_iff (o : ExchangeOutcome) : o.isProbe = true ↔ o.exchange.kind = .probe := by
  simp [ExchangeOutcome.isProbe]

/-- R26: the Station Directory takes the oldest outcome handed to it. -/
theorem exec_stationOutcome {g : Segment} {s : State} {o : ExchangeOutcome} {waiting : List ExchangeOutcome}
    (awake : s.part.resetLow = false) (first : (s.part.engine g).toStations = o :: waiting)
    (kind : o.exchange.kind ≠ .probe) : exec (.stationOutcome g) s =
      .next (s.with ((s.part.updateEngine g fun e => { e with toStations := waiting }).stationResult g o)) := by
  have notProbe : o.isProbe = false := Bool.eq_false_iff.mpr (mt o.isProbe_iff.mp kind)
  refine (s.claim_awake (·.nextStationOutcome g false) awake).trans (congrArg (fun t => Host.Outcome.next (s.with t)) ?_)
  simp [Part.nextStationOutcome, first, notProbe, Part.stationTakes]

/-- R26: the Station Directory takes the oldest outcome handed to it, a PROBE's. -/
theorem exec_probeOutcome {g : Segment} {s : State} {o : ExchangeOutcome} {waiting : List ExchangeOutcome}
    (awake : s.part.resetLow = false) (first : (s.part.engine g).toStations = o :: waiting)
    (kind : o.exchange.kind = .probe) : exec (.probeOutcome g) s =
      .next (s.with ((s.part.updateEngine g fun e => { e with toStations := waiting }).probeResult g o)) := by
  refine (s.claim_awake (·.nextStationOutcome g true) awake).trans (congrArg (fun t => Host.Outcome.next (s.with t)) ?_)
  simp [Part.nextStationOutcome, first, o.isProbe_iff.mpr kind, Part.stationTakes]

/-- Settles O50: `Part.stationResult` by the state of the entry, the result and the counter. -/
theorem stationOutcomesApply : Obligations.StationOutcomesApply := by
  intro g s o waiting e k awake first kind entry u becomes limit counts
  have taken {t : Part} (h : u.stationResult g o = t) : becomes t :=
    (exec_stationOutcome awake first kind).trans (congrArg (fun t => Host.Outcome.next (s.with t)) h)
  have entry' : u.station g k = some e := (Part.updateEngine_station ..).trans entry
  have limit' : (u.control g).config.silenceLimit = limit := congrArg (·.config.silenceLimit) (Part.updateEngine_control ..)
  refine ⟨fun away => taken (Part.stationResult_away entry' away), fun present => ⟨fun station => ?_,
    fun timeout station => ?_, fun timeout below => ?_, fun timeout reached => ?_⟩⟩
  · have same : o.result.silenceAfter e.silence = e.silence := by rw [station]; rfl
    refine taken ((Part.stationResult_counts entry' present same fun timeout => ?_).trans (Part.withStation_self entry'))
    rw [station] at timeout
    cases timeout
  · exact taken (Part.stationResult_counts entry' present (ExchangeResult.silenceAfter_clears _ timeout station)
      fun counts => absurd counts timeout)
  · exact taken (Part.stationResult_counts entry' present (by rw [timeout]; rfl) fun _ => limit' ▸ below)
  · refine taken ((Part.stationResult_silences entry' present timeout (limit' ▸ reached)).trans ?_)
    simp only [Part.silenceStation, u, Part.updateEngine_refCount]
    rfl

/-! ### Attach and reattach (R147 to R149) -/

/-- R65, R148: the record once its node has cleared its sequence memory; no lost ACCEPT is outstanding (log 31). -/
def Record.resequenced (r : Record) : Record :=
  { r with
    sequenceBit := if r.kind = .input then r.sequenceBit else false
    missed := if r.kind = .input then r.missed else false }

theorem Record.resequenced_eq (r : Record) :
    (if r.kind.outputClass then { r with sequenceBit := false, missed := false } else r) = r.resequenced := by
  simp only [RecordKind.outputClass_iff, ne_eq, ite_not, Record.resequenced]
  split <;> rfl

/-- R148: an identity is expected, and it is not this one. -/
abbrev Record.ExpectsOther (r : Record) (i : Identity) : Prop := ∃ want, r.expected = some want ∧ want ≠ i

theorem Record.expectsOther_iff (r : Record) (i : Identity) :
    r.expected.any (· != i) = true ↔ r.ExpectsOther i := by
  simp [Record.ExpectsOther, Option.any_eq_true]

section Compared
variable {i : Identity} {r : Record} (notice : Bool) (n : Nat)

/-- R148: a record that expects another identity halts, with a reason where it was served. -/
theorem attachVerdict_differs (active : r.state.active = true) (differs : r.ExpectsOther i) :
    attachVerdict i notice n r = ({ r.resequenced with state := .halted, condition := .identityMismatch },
      if r.state.served then [.halted] else []) := by
  have other := (r.expectsOther_iff i).mpr differs
  unfold attachVerdict
  simp only [r.resequenced_eq, other, if_true]
  cases hs : r.state <;> simp_all [RecordState.active, RecordState.served, Record.resequenced]

/-- R147, R148, R149: a record that stands raises STATION where a notice is due. -/
theorem attachVerdict_stands (active : r.state.active = true) (stands : ¬r.ExpectsOther i) :
    attachVerdict i notice n r = (r.resequenced, if notice then [.station] else []) := by
  have same : r.expected.any (· != i) = false := Bool.eq_false_iff.mpr (mt (r.expectsOther_iff i).mp stands)
  unfold attachVerdict
  simp only [r.resequenced_eq, same]
  cases hs : r.state <;> simp_all [RecordState.active]

/-- R148: a RETIRING or RETIRED record is left alone. -/
theorem attachVerdict_inactive (i : Identity) (inactive : r.state.active = false) :
    attachVerdict i notice n r = (r, []) := by
  cases hs : r.state <;> simp_all [attachVerdict, RecordState.active]

end Compared

theorem attachVerdict_silentRetire (i : Identity) (notice : Bool) (n : Nat) (r : Record) :
    (attachVerdict i notice n r).1.silentRetire = r.silentRetire := by
  cases active : r.state.active
  · rw [attachVerdict_inactive notice n i active]
  · by_cases differs : r.ExpectsOther i
    · rw [attachVerdict_differs notice n active differs]
      rfl
    · rw [attachVerdict_stands notice n active differs]
      rfl

/-- R147 to R149: the reasons that the comparison raises. -/
theorem attachVerdict_reasons (i : Identity) (notice : Prop) [Decidable notice] (n : Nat) (r : Record) :
    (attachVerdict i (decide notice) n r).2 =
      if r.state.served = true ∧ r.ExpectsOther i then [.halted]
      else if r.state.active = true ∧ ¬r.ExpectsOther i ∧ notice then [.station]
      else [] := by
  by_cases active : r.state.active = true
  · by_cases differs : r.ExpectsOther i
    · simp [attachVerdict_differs _ n active differs, differs]
    · simp [attachVerdict_stands _ n active differs, differs, active]
  · have unserved : ¬(r.state.served = true ∧ r.ExpectsOther i) := fun h => active (RecordState.active_of_served h.1)
    rw [attachVerdict_inactive _ n i (Bool.eq_false_iff.mpr active), if_neg unserved, if_neg fun h => active h.1]

section Attach
variable (s : Part) (g : Segment) (k : Nat) (i : Identity) (notice : Bool)

theorem Part.attach_record (n : Nat) : (s.attach g k i notice).record n = (s.record n).map fun r =>
    if r.segment = g ∧ r.station = k then
      (attachVerdict i notice n r).1.withReasons (attachVerdict i notice n r).2 else r := by
  simp only [Part.attach, Part.dequeueHalted, Part.setFlags_record, Part.updateEngine_record, Part.forRecords_record,
    Part.withStation_record, Record.onStation_iff]

/-- R175: the lists gain the slots on which the comparison raises a reason. -/
theorem Part.attach_listsGain : s.ListsGain (s.attach g k i notice) fun n r =>
    (r.segment = g ∧ r.station = k) ∧ (attachVerdict i notice n r).2 ≠ [] := by
  intro p
  have gains := (s.withStation g k ⟨.present, some i, 0⟩).forRecords_listsGain (fun _ r => r.onStation g k)
    (attachVerdict i notice) (fun n r => (r.segment = g ∧ r.station = k) ∧ (attachVerdict i notice n r).2 ≠ [])
    (fun n r => ((Record.fixed_eq_iff _ _).mp (attachVerdict_fixed i notice n r)).2.1)
    (fun n r => attachVerdict_silentRetire i notice n r) (fun n r _ _ => by rw [Record.onStation_iff]) p
  simpa only [Part.withStation_port, Part.withStation_record, Part.attach, Part.dequeueHalted, Part.setFlags_attention,
    Part.updateEngine_port] using gains

/-- R31, R87: the records that are HALTED leave the Due Queue. -/
theorem Part.attach_engine : (s.attach g k i notice).engine g = (s.engine g).remove fun n =>
    ((s.attach g k i notice).record n).any fun r => r.state == .halted && r.segment == g := by
  simp only [Part.attach, Part.dequeueHalted, Part.setFlags_engine, Part.updateEngine_engine, Part.forRecords_engine,
    Part.withStation_engine, Part.setFlags_record, Part.updateEngine_record]

/-- R147, R149: the entry of the station becomes PRESENT with the new identity. -/
theorem Part.attach_station {e : Station} (entry : s.station g k = some e) (m : Nat) :
    (s.attach g k i notice).station g m = if m = k then some ⟨.present, some i, 0⟩ else s.station g m := by
  rw [← Part.withStation_station s g k m _ e entry, Part.attach, Part.dequeueHalted, Part.setFlags_station,
    Part.updateEngine_station]
  simp only [Part.station, Part.forRecords_seg]

theorem Part.attach_control (h : Segment) : (s.attach g k i notice).control h = s.control h := by
  simp only [Part.attach, Part.dequeueHalted, Part.setFlags_control, Part.updateEngine_control, Part.forRecords_control,
    Part.withStation_control]

theorem Part.attach_sameOther : s.SameOther (s.attach g k i notice) g := by
  intro h hg
  rw [Part.attach, Part.dequeueHalted, Part.setFlags_seg, Part.updateEngine_seg_ne _ _ _ _ hg, Part.forRecords_seg,
    Part.withStation_seg_ne _ _ _ _ _ hg]

theorem Part.attach_sameBus : s.SameBus (s.attach g k i notice) :=
  (((s.withStation_sameBus g k _).trans (Part.forRecords_sameBus ..)).trans (Part.updateEngine_sameBus ..)).trans
    (Part.setFlags_sameBus ..)

theorem Part.dequeueHalted_flagged : s.PortsFlagged (s.dequeueHalted g) fun _ => False :=
  .of_ports fun _ => Part.updateEngine_port ..

/-- R150: the segment's flags are set. -/
theorem Part.attach_flagged : s.PortsFlagged (s.attach g k i notice) (· = g) := by
  have entered : s.PortsFlagged (s.withStation g k ⟨.present, some i, 0⟩) fun _ => False := .of_ports fun p => by simp
  have compared := entered.trans (Part.forRecords_flagged _ (fun _ r => r.onStation g k) (attachVerdict i notice))
  exact ((compared.trans (Part.dequeueHalted_flagged _ g)).trans (Part.setFlags_flagged _ g)).congr fun h => by simp

end Attach

section Probe
variable {s : Part} {g : Segment} {o : ExchangeOutcome} {e : Station} (entry : s.station g o.exchange.station = some e)
include entry

/-- R146: a PROBE's outcome that is no IDENT, or that finds its station PRESENT or BARRED, changes nothing. -/
theorem Part.probeResult_ignored (h : (∀ i, o.result ≠ .ident i) ∨ e.state = .present ∨ e.state = .barred) :
    s.probeResult g o = s := by
  unfold Part.probeResult
  split
  · next d i entry' ident =>
    obtain rfl : d = e := Option.some.inj (entry'.symm.trans entry)
    obtain noIdent | present | barred := h
    · exact absurd ident (noIdent i)
    · simp [present]
    · simp [barred]
  · rfl

/-- R147, R149: IDENT attaches an ABSENT station and reattaches a SILENT one, with a notice but for a SILENT station that has
the identity it had. -/
theorem Part.probeResult_attaches {i : Identity} (ident : o.result = .ident i)
    (away : e.state = .absent ∨ e.state = .silent) : s.probeResult g o =
      s.attach g o.exchange.station i (decide (e.state = .absent ∨ e.identity ≠ some i)) := by
  obtain absent | silent := away
  · simp [Part.probeResult, entry, ident, absent]
  · simp [Part.probeResult, entry, ident, silent, bne, beq_eq_decide]

end Probe

/-- Settles O51: the part that `Part.attach` makes, and what `attachVerdict` makes of each record and raises on it. -/
theorem probeOutcomesApply : Obligations.ProbeOutcomesApply := by
  intro g s o waiting e k awake first kind entry u
  have taken {t : Part} (h : u.probeResult g o = t) : exec (.probeOutcome g) s = .next (s.with t) :=
    (exec_probeOutcome awake first kind).trans (congrArg (fun t => Host.Outcome.next (s.with t)) h)
  have entry' : u.station g k = some e := (Part.updateEngine_station ..).trans entry
  refine ⟨fun ignored => taken (Part.probeResult_ignored entry' ignored), fun i ident away => ?_⟩
  intro notice differs here raised
  have records (n : Nat) : u.record n = s.part.record n := Part.updateEngine_record ..
  have ports (p : Port) : u.port p = s.part.port p := Part.updateEngine_port ..
  have reasons (n : Nat) (r : Record) : (attachVerdict i (decide notice) n r).2 = raised r :=
    attachVerdict_reasons i notice n r
  refine ⟨u.attach g k i (decide notice), taken (Part.probeResult_attaches entry' ident away), fun n r record => ?_,
    fun n free => ?_, fun p => ?_, ⟨_, fun n => ?_, u.attach_engine g k i _⟩, fun m => ?_, ?_, fun h hg => ?_, ?_, fun p => ?_⟩
  · rw [Part.attach_record, records, record, Option.map_some, reasons]
    refine ⟨fun routed active other => ?_, fun routed active stands => ?_, fun untouched => ?_⟩
    · rw [if_pos routed, attachVerdict_differs _ n active other]
      rfl
    · rw [if_pos routed, attachVerdict_stands _ n active stands]
      rfl
    · by_cases routed : here r
      · have inactive := untouched.resolve_left (not_not.mpr routed)
        rw [if_pos routed, ← reasons n r, attachVerdict_inactive _ n i inactive, Record.withReasons_nil]
      · rw [if_neg routed]
  · rw [Part.attach_record, records, free]
    rfl
  · simpa only [ports, records, reasons] using u.attach_listsGain g k i (decide notice) p
  · simp [Option.any_eq_true]
  · rw [u.attach_station g k i _ entry', Part.updateEngine_station]
  · rw [Part.attach_control, Part.updateEngine_control]
  · rw [u.attach_sameOther g k i _ h hg, Part.updateEngine_seg_ne _ _ _ _ hg]
  · exact (Part.updateEngine_sameBus ..).trans (u.attach_sameBus g k i _)
  · simpa only [ports] using u.attach_flagged g k i (decide notice) p

end Sys2Proof.Machine
end

section
/-! SUPPORT. How a segment's pins, timers and engine go with its state (R54, R76, R77, R96, R99, R157, R162 to R167): what the
claims on the line, on records and on stations keep of it, the life of a segment, and every command. -/

namespace Sys2Proof.Machine

/-! ### The engine -/

/-- R54, R96: SxDE is asserted exactly while a frame is on the line. -/
def Engine.Driven (e : Engine) : Prop := e.driverEnable = true ↔ e.frame ≠ []

/-- What a claim does that starts no frame and no timer and owes no MARK: it disturbs no engine at rest. -/
structure Engine.Coasts (e e' : Engine) : Prop where
  driver : e.Driven → e'.Driven
  timer : e'.cycleTimer.isSome = true → e.cycleTimer.isSome = true
  owed : e'.markOwed = true → e.markOwed = true
  rest : e.AtRest → e'.AtRest

section Engine
variable {e e' e'' : Engine}

theorem Engine.Coasts.refl (e : Engine) : e.Coasts e := ⟨id, id, id, id⟩

theorem Engine.Coasts.trans (h : e.Coasts e') (k : e'.Coasts e'') : e.Coasts e'' :=
  ⟨fun d => k.driver (h.driver d), fun t => h.timer (k.timer t), fun o => h.owed (k.owed o), fun r => k.rest (h.rest r)⟩

/-- A claim on what is handed over and on the queue, which puts nothing into an empty one. -/
theorem Engine.Coasts.of_eq (state : e'.state = e.state) (frame : e'.frame = e.frame)
    (queue : e.active = [] ∧ e.held = [] → e'.active = [] ∧ e'.held = []) (exchange : e'.exchange = e.exchange)
    (timer : e'.cycleTimer = e.cycleTimer) (steps : e'.stepsDue = e.stepsDue) (owed : e'.markOwed = e.markOwed) :
    e.Coasts e' where
  driver := by simp only [Engine.Driven, Engine.driverEnable, state, frame, imp_self]
  timer := timer ▸ id
  owed := owed ▸ id
  rest := fun h => ⟨state ▸ h.ready, frame ▸ h.line, queue h.queue, exchange ▸ h.exchange, timer ▸ h.timer, steps ▸ h.steps⟩

/-- A claim of an exchange or a MARK that is under way, which leaves SxDE released. -/
theorem Engine.Coasts.of_busy (busy : e.state ≠ .ready) (released : e'.driverEnable = false)
    (line : e.Driven → e'.frame = []) (timer : e'.cycleTimer = e.cycleTimer) (owed : e'.markOwed = e.markOwed) :
    e.Coasts e' where
  driver := fun h => by simp [Engine.Driven, released, line h]
  timer := timer ▸ id
  owed := owed ▸ id
  rest := fun h => absurd h.ready busy

theorem Engine.Driven.line (h : e.Driven) (released : e.driverEnable = false) : e.frame = [] := by
  simpa [Engine.Driven, released] using h

theorem Engine.Coasts.elapse (e : Engine) (t : Nat) : e.Coasts (e.elapse t) where
  driver := id
  timer := by simp [Engine.elapse]
  owed := id
  rest := fun h => ⟨h.ready, h.line, h.queue, by simp [Engine.elapse, h.exchange], by simp [Engine.elapse, h.timer], h.steps⟩

/-- R87: a removal from the Due Queue. -/
theorem Engine.Coasts.remove (e : Engine) (test : Nat → Bool) : e.Coasts (e.remove test) :=
  .of_eq rfl rfl (fun ⟨active, held⟩ => by simp [Engine.remove, active, held]) rfl rfl rfl rfl

/-- R99: an engine that is torn down is at rest. -/
theorem Engine.teardown_atRest (e : Engine) : e.teardown.AtRest := ⟨rfl, rfl, ⟨rfl, rfl⟩, rfl, rfl, rfl⟩

/-- An engine at rest drives nothing. -/
theorem Engine.AtRest.driven (h : e.AtRest) : e.Driven := by
  simp [Engine.Driven, Engine.driverEnable, h.ready, h.line]

/-- R73: an exchange completes with SxDE released. -/
theorem Engine.Coasts.complete (e : Engine) (c : SegmentConfig) (r : ExchangeResult) (busy : e.state ≠ .ready)
    (released : e.driverEnable = false) : e.Coasts (e.complete c r) := by
  rcases hx : e.exchange with _ | x
  · rw [Engine.complete, hx]
    exact .refl e
  · rw [Engine.complete_exchange hx]
    exact .of_busy busy rfl (fun h => h.line released) rfl rfl

/-! ### The claims on the line -/

theorem Engine.Coasts.endMark (e : Engine) (c : SegmentConfig) : e.Coasts (e.endMark c) := by
  unfold Engine.endMark
  split
  · next left sending _ =>
    exact (Engine.Coasts.elapse e left).trans (.of_busy (by simp [Engine.elapse, sending]) rfl (fun _ => rfl) rfl rfl)
  · exact .refl e

theorem Engine.Coasts.endRequest (e : Engine) (c : SegmentConfig) : e.Coasts (e.endRequest c) := by
  unfold Engine.endRequest
  split
  · next left _ sending _ =>
    exact (Engine.Coasts.elapse e left).trans (.of_busy (by simp [Engine.elapse, sending]) rfl (fun _ => rfl) rfl rfl)
  · exact .refl e

theorem Engine.Coasts.expireWindow (e : Engine) (c : SegmentConfig) : e.Coasts (e.expireWindow c) := by
  unfold Engine.expireWindow
  split
  · next left waiting =>
    exact (Engine.Coasts.elapse e left).trans
      (.complete _ c _ (by simp [Engine.elapse, waiting]) (by simp [Engine.elapse, Engine.driverEnable, waiting]))
  · exact .refl e

theorem Engine.Coasts.listen (e : Engine) (c : SegmentConfig) (line : List Bool) : e.Coasts (e.listen c line) := by
  unfold Engine.listen
  split
  · next elapsed _ =>
    unfold Engine.startReply
    split
    · next window _ waiting _ =>
      split
      · exact (Engine.Coasts.elapse e elapsed).trans (.of_busy (by simp [Engine.elapse, waiting]) rfl
          (fun h => h.line (by simp [Engine.elapse, Engine.driverEnable, waiting])) rfl rfl)
      · exact .refl e
    · exact .refl e
  · exact .refl e

section Reply
variable (c : SegmentConfig) {deadline nextBy : Nat} {received : List Byte} (replying : e.state = .reply deadline nextBy received)
include replying

/-- R69, R70: time passes in REPLY, and the exchange completes. -/
theorem Engine.Coasts.endReply (elapsed : Nat) (r : ExchangeResult) : e.Coasts ((e.elapse elapsed).complete c r) :=
  (Engine.Coasts.elapse e elapsed).trans
    (.complete _ c r (by simp [Engine.elapse, replying]) (by simp [Engine.elapse, Engine.driverEnable, replying]))

/-- R69 to R71: time passes in REPLY, and a good character is taken. -/
theorem Engine.Coasts.takeByte (elapsed : Nat) (x : Exchange) (left : Nat) (bytes : List Byte) :
    e.Coasts ((e.elapse elapsed).takeByte c x left bytes) := by
  unfold Engine.takeByte
  split
  · exact .endReply c replying elapsed _
  · split
    · exact .endReply c replying elapsed _
    · exact (Engine.Coasts.elapse e elapsed).trans (.of_busy (by simp [Engine.elapse, replying]) rfl
        (fun h => h.line (by simp [Engine.elapse, Engine.driverEnable, replying])) rfl rfl)

end Reply

theorem Engine.Coasts.sampleCharacter (e : Engine) (c : SegmentConfig) (elapsed : Nat) (before : Bool) (line : List Bool) :
    e.Coasts (e.sampleCharacter c elapsed before line) := by
  unfold Engine.sampleCharacter
  split
  · unfold Engine.receive
    split
    · next replying _ =>
      split
      · split
        · exact .takeByte c replying elapsed _ _ _
        · exact .endReply c replying elapsed _
      · exact .refl e
    · exact .refl e
  · exact .refl e

theorem Engine.Coasts.expireGap (e : Engine) (c : SegmentConfig) : e.Coasts (e.expireGap c) := by
  unfold Engine.expireGap
  split
  · next replying =>
    split
    · exact .endReply c replying _ _
    · exact .refl e
  · exact .refl e

theorem Engine.Coasts.expireDeadline (e : Engine) (c : SegmentConfig) : e.Coasts (e.expireDeadline c) := by
  unfold Engine.expireDeadline
  split
  · next replying => exact .endReply c replying _ _
  · exact .refl e

/-! ### The claims that put a frame on the line -/

theorem withCheck_ne_nil (bytes : List Byte) : withCheck bytes ≠ [] := by
  simp [withCheck_eq]

/-- R54, R96: a frame that begins asserts SxDE. -/
theorem Engine.driven_of_request {left : Nat} (sending : e.state = .request left) (line : e.frame ≠ []) : e.Driven := by
  simp [Engine.Driven, Engine.driverEnable, sending, line]

theorem Engine.sendMark_driven (e : Engine) (c : SegmentConfig) (cycle : BitVec 16) : (e.sendMark c cycle).Driven :=
  driven_of_request (left := _) rfl (withCheck_ne_nil _)

/-- R77, R98: a MARK called for keeps SxDE in step, sent or owed. -/
theorem Engine.Driven.callMark (h : e.Driven) (c : SegmentConfig) : (e.callMark c).Driven := by
  unfold Engine.callMark
  split
  · exact e.sendMark_driven c 0
  · exact h

theorem Engine.startExchange_driven (e : Engine) (c : SegmentConfig) (x : Exchange) (k : ExchangeKind)
    (sequenceBit : Bool) (station object : Nat) (payload : List Byte) :
    (e.startExchange c x (masterFrame k sequenceBit station object payload)).Driven :=
  driven_of_request (left := _) rfl (withCheck_ne_nil _)

end Engine

/-! ### The segment -/

/-- Coherence speaks of the engine and the controller alone. -/
theorem SegmentUnit.Coherent.congr {u v : SegmentUnit} (h : u.Coherent) (engine : v.engine = u.engine)
    (control : v.control = u.control) : v.Coherent := by
  obtain ⟨e, l, c⟩ := v
  obtain rfl : e = u.engine := engine
  obtain rfl : c = u.control := control
  exact ⟨h.power, h.supply, h.settle, h.scan, h.driver, h.timer, h.owed, h.rest⟩

/-- A claim on the engine that disturbs none at rest. -/
theorem SegmentUnit.Coherent.coasts {u : SegmentUnit} (h : u.Coherent) {e : Engine} (coasts : u.engine.Coasts e) :
    { u with engine := e }.Coherent where
  power := h.power
  supply := h.supply
  settle := h.settle
  scan := h.scan
  driver := coasts.driver h.driver
  timer := fun running => h.timer (coasts.timer running)
  owed := fun owed => h.owed (coasts.owed owed)
  rest := fun quiet => coasts.rest (h.rest quiet)

/-- A claim on the engine of a segment that has traffic; a timer is started and a MARK owed in RUNNING alone. -/
theorem SegmentUnit.Coherent.busy {u : SegmentUnit} (h : u.Coherent) (busy : u.control.state.onLine = true) {e : Engine}
    (driver : e.Driven) (timer : u.control.state = .running ∨ e.cycleTimer = u.engine.cycleTimer)
    (owed : u.control.state = .running ∨ e.markOwed = u.engine.markOwed) : { u with engine := e }.Coherent where
  power := h.power
  supply := h.supply
  settle := h.settle
  scan := h.scan
  driver := driver
  timer := fun runs => timer.elim id fun same => h.timer (same ▸ runs)
  owed := fun owes => owed.elim id fun same => h.owed (same ▸ owes)
  rest := fun quiet => by simp [busy] at quiet

/-- R163: outside POWERING the settle timer is stopped. -/
theorem SegmentUnit.Coherent.settle_none {u : SegmentUnit} (h : u.Coherent) (other : u.control.state ≠ .powering) :
    u.control.settleTimer = none := by
  simpa [other] using h.settle

/-- R164, R165: outside SCANNING there is no scan position. -/
theorem SegmentUnit.Coherent.scan_none {u : SegmentUnit} (h : u.Coherent) (other : u.control.state ≠ .scanning) :
    u.control.scanPosition = none := by
  simpa [other] using h.scan

/-- R77, R98: outside RUNNING no MARK is owed. -/
theorem SegmentUnit.Coherent.owed_false {u : SegmentUnit} (h : u.Coherent) (other : u.control.state ≠ .running) :
    u.engine.markOwed = false :=
  Bool.eq_false_iff.mpr fun owed => other (h.owed owed)

/-- R157: SxPWR by the state. -/
theorem SegmentUnit.Coherent.power_of {u : SegmentUnit} (h : u.Coherent) {x : SegmentState} (state : u.control.state = x) :
    u.control.powerOut = x.powered := by
  rw [h.power, state]

/-- R157, R164: a segment in SCANNING, wherever its scan stands. -/
structure SegmentUnit.Scans (u : SegmentUnit) : Prop where
  scanning : u.control.state = .scanning
  power : u.control.powerOut = true
  supply : u.control.faultIn = false
  settle : u.control.settleTimer = none
  driver : u.engine.Driven
  timer : u.engine.cycleTimer = none
  owed : u.engine.markOwed = false

/-- R165: a coherent segment in SCANNING. -/
theorem SegmentUnit.Coherent.scans {u : SegmentUnit} (h : u.Coherent) (scanning : u.control.state = .scanning) : u.Scans where
  scanning := scanning
  power := h.power_of scanning
  supply := h.supply (by rw [scanning]; rfl)
  settle := h.settle_none (by simp [scanning])
  driver := h.driver
  timer := by simpa [scanning] using h.timer
  owed := h.owed_false (by simp [scanning])

/-- R164: a scan that stands at a station. -/
theorem SegmentUnit.Scans.coherent {u : SegmentUnit} (h : u.Scans) (n : Nat) :
    { u with control := { u.control with scanPosition := some n } }.Coherent where
  power := by simp [h.power, h.scanning, SegmentState.powered]
  supply := fun _ => h.supply
  settle := by simp [h.settle, h.scanning]
  scan := by simp [h.scanning]
  driver := h.driver
  timer := by simp [h.timer]
  owed := by simp [h.owed]
  rest := by simp [h.scanning, SegmentState.onLine]

/-- A segment in RUNNING. -/
theorem SegmentUnit.Coherent.of_running {u : SegmentUnit} (running : u.control.state = .running)
    (power : u.control.powerOut = true) (supply : u.control.faultIn = false) (settle : u.control.settleTimer = none)
    (scan : u.control.scanPosition = none) (driver : u.engine.Driven) : u.Coherent where
  power := by rw [power, running]; rfl
  supply := fun _ => supply
  settle := by simp [settle, running]
  scan := by simp [scan, running]
  driver := driver
  timer := fun _ => running
  owed := fun _ => running
  rest := by simp [running, SegmentState.onLine]

/-- R157, R167: a segment that is not powered, its engine at rest. -/
theorem SegmentUnit.Coherent.of_unpowered {u : SegmentUnit} (unpowered : u.control.state.powered = false)
    (power : u.control.powerOut = false) (settle : u.control.settleTimer = none) (scan : u.control.scanPosition = none)
    (owed : u.engine.markOwed = false) (rest : u.engine.AtRest) : u.Coherent where
  power := by rw [power, unpowered]
  supply := by simp [unpowered]
  settle := by rw [settle]; exact ⟨nofun, fun h => by simp [h, SegmentState.powered] at unpowered⟩
  scan := by rw [scan]; exact ⟨nofun, fun h => by simp [h, SegmentState.powered] at unpowered⟩
  driver := rest.driven
  timer := by simp [rest.timer]
  owed := by simp [owed]
  rest := fun _ => rest

section Segments
variable {s t : Part}

theorem Part.updateEngine_seg (s : Part) (g : Segment) (f : Engine → Engine) :
    (s.updateEngine g f).seg g = { s.seg g with engine := f (s.engine g) } := by
  cases g <;> rfl

theorem Part.updateControl_seg (s : Part) (g : Segment) (f : Control → Control) :
    (s.updateControl g f).seg g = { s.seg g with control := f (s.control g) } := by
  cases g <;> rfl

theorem Part.SegmentsCoherent.congr (h : s.SegmentsCoherent) (engines : ∀ g, t.engine g = s.engine g)
    (controls : ∀ g, t.control g = s.control g) : t.SegmentsCoherent :=
  fun g => (h g).congr (engines g) (controls g)

/-- A change of the ports, the table or the stations. -/
theorem Part.SegmentsCoherent.ports (h : s.SegmentsCoherent) (segs : ∀ g, t.seg g = s.seg g) : t.SegmentsCoherent :=
  fun g => segs g ▸ h g

/-- A change of one segment. -/
theorem Part.SegmentsCoherent.segment {g : Segment} (others : ∀ k, k ≠ g → (s.seg k).Coherent) (u : SegmentUnit)
    (same : ∀ k, k ≠ g → t.seg k = s.seg k) (unit : t.seg g = u) (coherent : u.Coherent) : t.SegmentsCoherent := by
  intro k
  by_cases hk : k = g
  · rw [hk, unit]
    exact coherent
  · rw [same k hk]
    exact others k hk

theorem Part.SegmentsCoherent.updateEngine (others : ∀ k, k ≠ g → (s.seg k).Coherent) {f : Engine → Engine}
    (coherent : { s.seg g with engine := f (s.engine g) }.Coherent) : (s.updateEngine g f).SegmentsCoherent :=
  .segment others _ (fun k hk => s.updateEngine_seg_ne g k f hk) (s.updateEngine_seg g f) coherent

/-- A claim on an engine that disturbs none at rest. -/
theorem Part.SegmentsCoherent.coasts (h : s.SegmentsCoherent) (g : Segment) {f : Engine → Engine}
    (coasts : (s.engine g).Coasts (f (s.engine g))) : (s.updateEngine g f).SegmentsCoherent :=
  .updateEngine (fun k _ => h k) ((h g).coasts coasts)

/-! ### Claims on records and stations -/

theorem Part.SegmentsCoherent.updatePort (h : s.SegmentsCoherent) (p : Port) (f : PortUnit → PortUnit) :
    (s.updatePort p f).SegmentsCoherent :=
  h.ports (by simp)

theorem Part.SegmentsCoherent.setFlags (h : s.SegmentsCoherent) (g : Segment) : (s.setFlags g).SegmentsCoherent :=
  h.ports (by simp)

theorem Part.SegmentsCoherent.answer (h : s.SegmentsCoherent) (p : Port) (f : RequestFrame) (a : Status) (l : List Byte) :
    (s.answer p f a l).SegmentsCoherent :=
  h.ports (by simp)

theorem Part.SegmentsCoherent.inSlotOrder (h : s.SegmentsCoherent) (u : Part) : (u.inSlotOrder s).SegmentsCoherent :=
  h.ports (by simp)

theorem Part.SegmentsCoherent.withRecord (h : s.SegmentsCoherent) (n : Nat) (r : Record) :
    (s.withRecord n r).SegmentsCoherent :=
  h.ports (by simp)

theorem Part.SegmentsCoherent.put (h : s.SegmentsCoherent) (n : Nat) (r : Record) (l : List Reason) :
    (s.put n r l).SegmentsCoherent :=
  h.ports (by simp)

theorem Part.SegmentsCoherent.forRecords (h : s.SegmentsCoherent) (test : Nat → Record → Bool)
    (f : Nat → Record → Verdict) : (s.forRecords test f).SegmentsCoherent :=
  h.ports (by simp)

theorem Part.SegmentsCoherent.withStation (h : s.SegmentsCoherent) (g : Segment) (k : Nat) (e : Station) :
    (s.withStation g k e).SegmentsCoherent :=
  h.congr (by simp) (by simp)

/-- R87: a removal from the Due Queue. -/
theorem Part.SegmentsCoherent.remove (h : s.SegmentsCoherent) (g : Segment) (test : Nat → Bool) :
    (s.updateEngine g (·.remove test)).SegmentsCoherent :=
  h.coasts g (.remove _ test)

theorem Part.SegmentsCoherent.dequeue (h : s.SegmentsCoherent) (g : Segment) (n : Nat) :
    (s.dequeue g n).SegmentsCoherent :=
  h.remove g _

/-- R19: a slot is released. -/
theorem Part.SegmentsCoherent.release (h : s.SegmentsCoherent) (n : Nat) : (s.release n).SegmentsCoherent := by
  rcases hr : s.record n with _ | r
  · simpa [Part.release, hr] using h
  · rw [Part.release_eq hr]
    refine ((h.dequeue r.segment n).congr (t := s.vacated n r) (fun g => ?_) fun g => ?_).congr (by simp) (by simp)
    · simp [Part.vacated]
    · simp [Part.vacated]

/-- R49, R86: placements are made while the segment is RUNNING or HELD. -/
theorem SegmentState.onLine_of_queues {x : SegmentState} (h : x.queues = true) : x.onLine = true := by
  cases x with
  | running | held => rfl
  | _ => cases h

/-- R86: a claim that puts slots into the queue of a segment that has traffic. -/
theorem Part.SegmentsCoherent.requeue (h : s.SegmentsCoherent) (g : Segment)
    (queues : (s.control g).state.queues = true) {f : Engine → Engine}
    (same : ∃ active held, f (s.engine g) = { s.engine g with active := active, held := held }) :
    (s.updateEngine g f).SegmentsCoherent := by
  obtain ⟨active, held, same⟩ := same
  refine .updateEngine (fun k _ => h k) ((h g).busy (SegmentState.onLine_of_queues queues) ?_ (Or.inr ?_) (Or.inr ?_))
  · rw [same]
    exact (h g).driver
  · rw [same]; rfl
  · rw [same]; rfl

theorem Part.SegmentsCoherent.place (h : s.SegmentsCoherent) (g : Segment) (n : Nat) (p : Placement) :
    (s.place g n p).SegmentsCoherent := by
  unfold Part.place
  split
  · next queues =>
    cases p
    · exact h
    · exact h.requeue g queues ⟨_, _, rfl⟩
    · exact h.requeue g queues ⟨_, _, rfl⟩
  · exact h

/-- R50, R136: an owed CANCEL is placed. -/
theorem Part.SegmentsCoherent.oweCancel (h : s.SegmentsCoherent) (n : Nat) (r : Record)
    (queues : (s.control r.segment).state.queues = true) : (s.oweCancel n r).SegmentsCoherent :=
  (h.withRecord n _).requeue r.segment (by simpa using queues) ⟨_, _, rfl⟩

theorem Part.SegmentsCoherent.departRecords (h : s.SegmentsCoherent) (g : Segment) (k : Nat) (c : Condition) :
    (s.departRecords g k c).SegmentsCoherent :=
  (h.forRecords _ _).remove g _

theorem Part.SegmentsCoherent.attach (h : s.SegmentsCoherent) (g : Segment) (k : Nat) (i : Identity) (notice : Bool) :
    (s.attach g k i notice).SegmentsCoherent :=
  (((h.withStation g k _).forRecords _ _).remove g _).setFlags g

/-- R143 to R149: the Station Directory takes an outcome. -/
theorem Part.SegmentsCoherent.stationTakes (h : s.SegmentsCoherent) (g : Segment) (o : ExchangeOutcome) :
    (s.stationTakes g o).SegmentsCoherent := by
  unfold Part.stationTakes
  split
  · unfold Part.probeResult
    split
    · split
      · exact h.attach g _ _ _
      · exact h.attach g _ _ _
      · exact h
      · exact h
    · exact h
  · unfold Part.stationResult
    split
    · exact h
    · split
      · dsimp only
        split
        · exact ((h.withStation g _ _).departRecords g _ _).setFlags g
        · exact h.withStation g _ _
      · exact h

/-- R151: an accepted STATION_BAR. -/
theorem Part.SegmentsCoherent.barStation (h : s.SegmentsCoherent) (g : Segment) (k : Nat) (e : Station) :
    (s.barStation g k e).SegmentsCoherent := by
  have entered := h.withStation g k ⟨.barred, e.identity, 0⟩
  unfold Part.barStation
  dsimp only
  split
  · exact (entered.departRecords g k _).setFlags g
  · exact (entered.forRecords _ _).setFlags g
  · exact (entered.forRecords _ _).setFlags g
  · exact h

/-- R153: an accepted STATION_UNBAR. -/
theorem Part.SegmentsCoherent.unbarStation (h : s.SegmentsCoherent) (g : Segment) (k : Nat) (e : Station) :
    (s.unbarStation g k e).SegmentsCoherent :=
  ((h.withStation g k _).forRecords _ _).setFlags g

/-! ### The requests on a record (chapter 2) -/

theorem Part.SegmentsCoherent.ownInsert (h : s.SegmentsCoherent) (p : Port) (f : RequestFrame) :
    (s.ownInsert p f).1.SegmentsCoherent := by
  rcases s.ownInsert_cases p f with e | ⟨a, kind, g, n, -, e⟩ <;> rw [e]
  · exact h
  · exact h.withRecord n _

theorem Part.SegmentsCoherent.ownAmend (h : s.SegmentsCoherent) (p : Port) (f : RequestFrame) :
    (s.ownAmend p f).1.SegmentsCoherent := by
  refine Part.onOwned_keeps (P := Part.SegmentsCoherent) h fun n r _ => ?_
  split
  · exact h
  · split
    · exact h
    · split
      · exact h
      · unfold Part.amendRecord
        dsimp only
        split
        · split
          · exact (h.dequeue r.segment n).put _ _ _
          · exact h.withRecord _ _
        · exact h.withRecord _ _

theorem Part.SegmentsCoherent.ownWrite (h : s.SegmentsCoherent) (p : Port) (f : RequestFrame) :
    (s.ownWrite p f).1.SegmentsCoherent := by
  refine Part.onOwned_keeps (P := Part.SegmentsCoherent) h fun n r _ => ?_
  split
  · exact h
  · split
    · exact h
    · exact h.withRecord _ _

/-- R46, R47: RESUME and RESTART. -/
theorem Part.SegmentsCoherent.ownReturn (h : s.SegmentsCoherent) (p : Port) (f : RequestFrame) (after : Record → Record) :
    (s.ownReturn p f after).1.SegmentsCoherent := by
  refine Part.onOwned_keeps (P := Part.SegmentsCoherent) h fun n r _ => ?_
  split
  · exact h
  · split
    · exact h
    · exact h.withRecord _ _

/-- R50: an owed CANCEL is placed while the segment is RUNNING or HELD. -/
theorem Part.queues_of_cancelPlaceable {r : Record} (h : s.cancelPlaceable r = true) :
    (s.control r.segment).state.queues = true := by
  simp only [Part.cancelPlaceable, Bool.and_eq_true] at h
  exact h.2

theorem Part.SegmentsCoherent.ownRetire (h : s.SegmentsCoherent) (p : Port) (f : RequestFrame) :
    (s.ownRetire p f).1.SegmentsCoherent := by
  refine Part.onOwned_keeps (P := Part.SegmentsCoherent) h fun n r _ => ?_
  split
  · have out := h.dequeue r.segment n
    unfold Part.retireRecord
    dsimp only
    split
    · exact out.withRecord _ _
    · split
      · split
        · next placeable =>
          exact out.oweCancel n r (by simpa [Part.dequeue] using Part.queues_of_cancelPlaceable placeable)
        · exact out.put _ _ _
      · exact out.put _ _ _
  · exact h

theorem Part.SegmentsCoherent.silence (h : s.SegmentsCoherent) (n : Nat) : (s.silence n).SegmentsCoherent := by
  unfold Part.silence
  split
  · exact h
  · exact ((h.dequeue _ n).withRecord _ _).updatePort _ _

/-- R52: PURGE. -/
theorem Part.SegmentsCoherent.ownPurge (h : s.SegmentsCoherent) (p : Port) : (s.ownPurge p).1.SegmentsCoherent :=
  List.foldlRecOn (motive := Part.SegmentsCoherent) _ _
    (List.foldlRecOn (motive := Part.SegmentsCoherent) _ _ h fun _ hu n _ => hu.silence n) fun _ hu n _ => hu.release n

theorem Part.SegmentsCoherent.ownNotice (h : s.SegmentsCoherent) (p : Port) : (s.ownNotice p).1.SegmentsCoherent := by
  unfold Part.ownNotice
  split
  · exact h
  · next n rest _ =>
    have taken := h.updatePort p fun u => { u with attention := rest }
    dsimp only
    split
    · exact taken
    · dsimp only
      split
      · exact (taken.withRecord n _).release n
      · exact taken.withRecord n _

/-! ### Outcomes (R102) -/

theorem Part.SegmentsCoherent.retiringOutcome (h : s.SegmentsCoherent) (n : Nat) (r : Record) (o : ExchangeOutcome)
    (present torn : Bool) : (s.retiringOutcome n r o present torn).SegmentsCoherent := by
  unfold Part.retiringOutcome
  split
  · exact h.release n
  · split
    · split <;> exact h.put _ _ _
    · split
      · split
        · exact h.withRecord _ _
        · split
          · next placeable => exact h.oweCancel n r (Bool.and_eq_true_iff.mp placeable).2
          · exact h.put _ _ _
      · exact h.put _ _ _

theorem Part.SegmentsCoherent.takeOutcome (h : s.SegmentsCoherent) (o : ExchangeOutcome) (torn : Bool) :
    (s.takeOutcome o torn).SegmentsCoherent := by
  unfold Part.takeOutcome
  split
  · exact h
  · next n _ =>
    split
    · exact h
    · next r _ =>
      unfold Part.outcomeOn
      dsimp only
      split
      case h_1 => exact h.retiringOutcome n r o _ torn
      case h_2 => exact h
      case h_3 =>
        split
        · exact h
        · exact h.put _ _ _
      case h_4 | h_5 | h_6 =>
        split
        · exact h
        · split
          · exact h.put _ _ _
          · exact (h.put _ _ _).place _ _ _

/-- R26: outcomes are taken off what waits. -/
theorem Part.SegmentsCoherent.nextOutcome (h : s.SegmentsCoherent) (g : Segment) : (s.nextOutcome g).SegmentsCoherent := by
  unfold Part.nextOutcome
  split
  · exact h
  · exact (h.coasts g (.of_eq (by rfl) (by rfl) id (by rfl) (by rfl) (by rfl) (by rfl))).takeOutcome _ false

theorem Part.SegmentsCoherent.nextStationOutcome (h : s.SegmentsCoherent) (g : Segment) (probe : Bool) :
    (s.nextStationOutcome g probe).SegmentsCoherent := by
  unfold Part.nextStationOutcome
  split
  · exact h
  · split
    · exact (h.coasts g (.of_eq (by rfl) (by rfl) id (by rfl) (by rfl) (by rfl) (by rfl))).stationTakes g _
    · exact h

/-! ### The teardown (R99, R168 to R170) -/

/-- A change of a controller's settings, or of the parts of a teardown handed out. -/
theorem Part.SegmentsCoherent.updateControl (h : s.SegmentsCoherent) (g : Segment) {f : Control → Control}
    (same : ∃ config stations records, f (s.control g) = { s.control g with
      config := config, stationTeardowns := stations, recordTeardowns := records }) :
    (s.updateControl g f).SegmentsCoherent := by
  obtain ⟨config, stations, records, same⟩ := same
  refine .segment (fun k _ => h k) _ (fun k hk => s.updateControl_seg_ne g k f hk) (s.updateControl_seg g f) ?_
  rw [same]
  exact ⟨(h g).power, (h g).supply, (h g).settle, (h g).scan, (h g).driver, (h g).timer, (h g).owed, (h g).rest⟩

/-- R167, R168: a segment enters OFF or FAULT with a teardown, whatever it was before. -/
theorem Part.SegmentsCoherent.tearDown {g : Segment} (others : ∀ k, k ≠ g → (s.seg k).Coherent) {new : SegmentState}
    (unpowered : new.powered = false) : (s.tearDown g new).SegmentsCoherent := by
  refine .segment others { s.seg g with
      engine := (s.engine g).teardown
      control := { s.control g with
        state := new
        powerOut := false
        settleTimer := none
        scanPosition := none
        stationTeardowns := (s.control g).stationTeardowns + 1
        recordTeardowns := (s.control g).recordTeardowns ++ [(s.engine g).exchange] } } (fun k hk => ?_) ?_
    (.of_unpowered unpowered rfl rfl rfl rfl (Engine.teardown_atRest _))
  · rw [Part.tearDown, Part.updateEngine_seg_ne _ _ _ _ hk, Part.enterState, Part.setFlags_seg,
      Part.updateControl_seg_ne _ _ _ _ hk, Part.updateControl_seg_ne _ _ _ _ hk]
  · cases g <;> rfl

theorem Part.SegmentsCoherent.stationBacklog (h : s.SegmentsCoherent) (g : Segment) :
    (s.stationBacklog g).SegmentsCoherent := by
  have taken := h.coasts g (f := fun e => { e with toStations := [] }) (.of_eq rfl rfl id rfl rfl rfl rfl)
  exact Part.SegmentsCoherent.inSlotOrder
    (List.foldlRecOn (motive := Part.SegmentsCoherent) _ _ taken fun _ hu o _ => hu.stationTakes g o) s

/-- R169: the stations of the segment at the teardown. -/
theorem Part.SegmentsCoherent.tearStations (h : s.SegmentsCoherent) (g : Segment) : (s.tearStations g).SegmentsCoherent := by
  have torn := h.congr
    (t := s.withSeg g { s.seg g with
      stations := (s.seg g).stations.mapIdx fun i e => tornStation (s.refCount g (i + 1) != 0) e })
    (s.withStations_engine g · _) (s.withStations_control g · _)
  unfold Part.tearStations
  dsimp only
  split
  · exact torn.setFlags g
  · exact torn

/-- R169: the Station Directory's part of a teardown. -/
theorem Part.SegmentsCoherent.stationTeardown (h : s.SegmentsCoherent) (g : Segment) :
    (s.stationTeardown g).SegmentsCoherent := by
  unfold Part.stationTeardown
  split
  · exact h
  · next left _ =>
    have handed := h.updateControl g (f := fun c => { c with stationTeardowns := left }) ⟨_, _, _, rfl⟩
    have standing : (((s.updateControl g fun c => { c with stationTeardowns := left }).stationBacklog g).holdStanding
        g).SegmentsCoherent :=
      (handed.stationBacklog g).coasts g (.of_eq (by rfl) (by rfl) id (by rfl) (by rfl) (by rfl) (by rfl))
    exact standing.tearStations g

theorem Part.SegmentsCoherent.tearRecords (h : s.SegmentsCoherent) (g : Segment) (x : Option Exchange) :
    (s.tearRecords g x).SegmentsCoherent :=
  List.foldlRecOn (motive := Part.SegmentsCoherent) _ _
    ((h.forRecords _ _).coasts g (.of_eq rfl rfl (fun _ => ⟨rfl, rfl⟩) rfl rfl rfl rfl)) fun _ hu n _ => hu.release n

/-- R170: the Table Controller's part of a teardown. -/
theorem Part.SegmentsCoherent.recordTeardown (h : s.SegmentsCoherent) (g : Segment) :
    (s.recordTeardown g).SegmentsCoherent := by
  unfold Part.recordTeardown
  split
  · exact h
  · next rest _ =>
    have handed := h.updateControl g (f := fun c => { c with recordTeardowns := rest }) ⟨_, _, _, rfl⟩
    have taken := handed.coasts g (f := fun e => { e with toTable := [] }) (.of_eq rfl rfl id rfl rfl rfl rfl)
    have ended : ((s.updateControl g fun c => { c with recordTeardowns := rest }).recordBacklog g).SegmentsCoherent :=
      List.foldlRecOn (motive := Part.SegmentsCoherent) _ _ taken fun _ hu o _ => hu.takeOutcome o true
    exact (ended.tearRecords g _).inSlotOrder _

/-! ### The cycle -/

/-- R76: the next MARK, in RUNNING. -/
theorem Part.SegmentsCoherent.expireCycle (h : s.SegmentsCoherent) (g : Segment) : (s.expireCycle g).SegmentsCoherent := by
  unfold Part.expireCycle
  dsimp only
  split
  · next due =>
    obtain ⟨running, -, -⟩ := due
    exact .updateEngine (fun k _ => h k) ((h g).busy (by change (s.control g).state.onLine = true; rw [running]; rfl)
      (Engine.sendMark_driven ..) (Or.inl running) (Or.inl running))
  · exact h

/-- R79, R99: a cycle step that waits is that of a segment that has traffic. -/
theorem Part.SegmentsCoherent.takeStep (h : s.SegmentsCoherent) (g : Segment) : (s.takeStep g).SegmentsCoherent := by
  unfold Part.takeStep
  dsimp only
  split
  · next due =>
    obtain ⟨steps, -, -⟩ := due
    have stepped := h.forRecords (fun _ r => r.segment == g) stepVerdict
    have busy : (s.control g).state.onLine = true :=
      Bool.not_eq_false _ ▸ fun quiet => steps ((h g).rest quiet).steps
    refine .updateEngine (fun k _ => stepped k) ((stepped g).busy ?_ (stepped g).driver (Or.inr rfl) (Or.inr rfl))
    rw [Part.forRecords_seg]
    exact busy
  · exact h

section Start
variable {g : Segment}

/-- R88: exchanges start while the segment is RUNNING. -/
theorem Part.running_of_mayStart (h : s.mayStart g = true) : (s.control g).state = .running := by
  simp only [Part.mayStart, Bool.and_eq_true, beq_iff_eq] at h
  obtain ⟨⟨⟨⟨⟨⟨-, running⟩, -⟩, -⟩, -⟩, -⟩, -⟩ := h
  exact running

/-- R61, R91: an exchange starts in a segment that is RUNNING. -/
theorem Part.SegmentsCoherent.startExchange (h : s.SegmentsCoherent) (running : (s.control g).state = .running)
    {f : Engine → Engine} (driver : (f (s.engine g)).Driven) : (s.updateEngine g f).SegmentsCoherent :=
  .updateEngine (fun k _ => h k) ((h g).busy (by change (s.control g).state.onLine = true; rw [running]; rfl) driver
    (Or.inl running) (Or.inl running))

theorem Part.SegmentsCoherent.considerHead (h : s.SegmentsCoherent) (running : (s.control g).state = .running)
    (elapsed : Nat) : (s.considerHead g elapsed).SegmentsCoherent := by
  unfold Part.considerHead
  split
  · split
    · exact h
    · next r _ =>
      split
      · exact h
      · next k _ =>
        split
        · have drawn := h.ports (t := { s with
            freeDraws := if r.started.drawsToken k then s.freeDraws + 1 else s.freeDraws }) fun g => by cases g <;> rfl
          refine ((drawn.withRecord _ r.started).dequeue g _).startExchange ?_ (Engine.startExchange_driven ..)
          rw [Part.dequeue, Part.updateEngine_control, Part.withRecord_control]
          cases g <;> exact running
        · exact h.coasts g ((Engine.Coasts.elapse _ elapsed).trans (.of_eq rfl rfl id rfl rfl rfl rfl))
  · exact h

theorem Part.SegmentsCoherent.considerProbe (h : s.SegmentsCoherent) (running : (s.control g).state = .running)
    (elapsed : Nat) : (s.considerProbe g elapsed).SegmentsCoherent := by
  unfold Part.considerProbe
  split
  · dsimp only
    split
    · exact h.startExchange running (Engine.driven_of_request (left := _) rfl (withCheck_ne_nil _))
    · exact h.coasts g ((Engine.Coasts.elapse _ elapsed).trans (.of_eq rfl rfl id rfl rfl rfl rfl))
  · exact h

end Start

/-! ### The scan (R164, R165) -/

section Scan
variable {g : Segment} (others : ∀ k, k ≠ g → (s.seg k).Coherent) (scans : (s.seg g).Scans)
include others scans

/-- R165: the scan ends. -/
theorem Part.SegmentsCoherent.endScan : (s.endScan g).SegmentsCoherent := by
  refine .segment others { s.seg g with
      engine := (s.engine g).callMark (s.control g).config
      control := { s.control g with state := .running, scanPosition := none } } (fun k hk => ?_) ?_
    (.of_running rfl scans.power scans.supply scans.settle rfl (scans.driver.callMark _))
  · rw [Part.endScan, Part.updateEngine_seg_ne _ _ _ _ hk, Part.enterState, Part.setFlags_seg,
      Part.updateControl_seg_ne _ _ _ _ hk, Part.updateControl_seg_ne _ _ _ _ hk]
  · cases g <;> rfl

/-- R164: the scan stands at a station. -/
theorem Part.SegmentsCoherent.scanAt (n : Nat) :
    (s.updateControl g fun c => { c with scanPosition := some n }).SegmentsCoherent :=
  .segment others _ (fun k hk => s.updateControl_seg_ne g k _ hk) (s.updateControl_seg g _) (scans.coherent n)

/-- R164: the turn of the scan passes. -/
theorem Part.SegmentsCoherent.scanFrom (position : Nat) : (s.scanFrom g position).SegmentsCoherent := by
  unfold Part.scanFrom
  split
  · exact .scanAt others scans _
  · exact .endScan others scans

end Scan

theorem Part.SegmentsCoherent.startScanProbe (h : s.SegmentsCoherent) (g : Segment) :
    (s.startScanProbe g).SegmentsCoherent := by
  unfold Part.startScanProbe
  split
  · next scanning _ _ _ =>
    have scans := (h g).scans scanning
    split
    · next n _ =>
      have stands := Part.SegmentsCoherent.scanAt (fun k _ => h k) scans n
      refine .updateEngine (fun k _ => stands k) ((stands g).busy ?_ (Engine.startExchange_driven ..) (Or.inr rfl)
        (Or.inr rfl))
      rw [Part.updateControl_seg]
      change (s.control g).state.onLine = true
      rw [scanning]
      rfl
    · exact .endScan (fun k _ => h k) scans
  · exact h

/-- R96: the engine becomes READY after a settling time. -/
theorem Engine.Coasts.settled {e : Engine} {left : Nat} (settling : e.state = .settle left) :
    e.Coasts { e.elapse left with state := .ready } :=
  (Engine.Coasts.elapse e left).trans (.of_busy (by simp [Engine.elapse, settling]) rfl
    (fun h => h.line (by simp [Engine.elapse, Engine.driverEnable, settling])) rfl rfl)

theorem Part.SegmentsCoherent.endSettling (h : s.SegmentsCoherent) (g : Segment) : (s.endSettling g).SegmentsCoherent := by
  unfold Part.endSettling
  split
  · next left settling =>
    have ready := h.coasts g (f := fun e => { e.elapse left with state := .ready }) (.settled settling)
    dsimp only
    split
    · next owed =>
      have running : (s.control g).state = .running := (h g).owed owed
      exact ready.startExchange (by simpa using running) (Engine.Driven.callMark (ready g).driver _)
    · split
      · next scanning _ =>
        exact .scanFrom (fun k _ => ready k) ((ready g).scans (by rw [Part.updateEngine_seg]; exact scanning)) _
      · exact ready
  · exact h

/-! ### The life of a segment -/

/-- R163: the settle timer expires, and the scan begins. -/
theorem Part.SegmentsCoherent.expireSettle (h : s.SegmentsCoherent) (g : Segment) :
    (s.expireSettle g).SegmentsCoherent := by
  unfold Part.expireSettle
  split
  · next due =>
    obtain ⟨powering, -⟩ := due
    have powering : (s.seg g).control.state = .powering := powering
    have rest := (h g).rest (by rw [powering]; rfl)
    have entered : (((s.updateControl g fun c => { c with settleTimer := none }).enterState g .scanning).seg g) =
        { s.seg g with control := { s.control g with state := .scanning, settleTimer := none } } := by cases g <;> rfl
    refine .scanFrom (fun k hk => ?_) ?_ 1
    · rw [Part.enterState, Part.setFlags_seg, Part.updateControl_seg_ne _ _ _ _ hk, Part.updateControl_seg_ne _ _ _ _ hk]
      exact h k
    · rw [entered]
      exact {
        scanning := rfl
        power := (h g).power_of powering
        supply := (h g).supply (by rw [powering]; rfl)
        settle := rfl
        driver := (h g).driver
        timer := rest.timer
        owed := (h g).owed_false (by simp [powering]) }
  · exact h

/-- R167: SxFLT takes a level. -/
theorem Part.SegmentsCoherent.supply (h : s.SegmentsCoherent) (g : Segment) (level : Bool) :
    (s.supply g level).SegmentsCoherent := by
  unfold Part.supply
  dsimp only
  split
  · refine .tearDown (fun k hk => ?_) rfl
    rw [Part.updateControl_seg_ne _ _ _ _ hk]
    exact h k
  · next ignored =>
    refine .segment (fun k _ => h k) _ (fun k hk => s.updateControl_seg_ne g k _ hk) (s.updateControl_seg g _) ?_
    refine { h g with supply := fun powered => ?_ }
    exact Bool.eq_false_iff.mpr fun asserted => ignored (Bool.and_eq_true_iff.mpr ⟨asserted, powered⟩)

/-- R162: ON. -/
theorem Part.SegmentsCoherent.commandOn (h : s.SegmentsCoherent) (g : Segment) : (s.commandOn g).1.SegmentsCoherent := by
  unfold Part.commandOn
  split
  case h_1 off =>
    have others (k : Segment) (hk : k ≠ g) : ((((s.updateControl g fun c => { c with
        powerOut := true, settleTimer := some c.config.settleLength, scanPosition := none }).enterState g .powering).seg
        k)).Coherent := by
      rw [Part.enterState, Part.setFlags_seg, Part.updateControl_seg_ne _ _ _ _ hk, Part.updateControl_seg_ne _ _ _ _ hk]
      exact h k
    dsimp only
    split
    · exact .tearDown others rfl
    · next clear =>
      have off : (s.seg g).control.state = .off := off
      have rest := (h g).rest (by rw [off]; rfl)
      refine .segment others { s.seg g with control := { s.control g with
        state := .powering
        powerOut := true
        settleTimer := some (s.control g).config.settleLength
        scanPosition := none } } (fun k hk => rfl) (by cases g <;> rfl) ?_
      exact {
        power := rfl
        supply := fun _ => Bool.eq_false_iff.mpr clear
        settle := by simp
        scan := by simp
        driver := (h g).driver
        timer := by simp [rest.timer]
        owed := by simp [(h g).owed_false (by simp [off])]
        rest := fun _ => rest }
  all_goals exact h

/-- R168, R171: OFF. -/
theorem Part.SegmentsCoherent.commandOff (h : s.SegmentsCoherent) (g : Segment) :
    (s.commandOff g).1.SegmentsCoherent := by
  unfold Part.commandOff
  split
  case h_1 => exact h
  case h_2 fault =>
    have fault : (s.seg g).control.state = .fault := fault
    refine .segment (g := g) (fun k _ => h k) { s.seg g with control := { s.control g with state := .off } } (fun k hk => ?_)
      (by cases g <;> rfl) (.of_unpowered rfl ((h g).power_of fault) ((h g).settle_none (by simp [fault]))
        ((h g).scan_none (by simp [fault])) ((h g).owed_false (by simp [fault])) ((h g).rest (by rw [fault]; rfl)))
    rw [Part.enterState, Part.setFlags_seg, Part.updateControl_seg_ne _ _ _ _ hk]
  all_goals exact .tearDown (fun k _ => h k) rfl

/-- R98, R166: HOLD. -/
theorem Part.SegmentsCoherent.commandHold (h : s.SegmentsCoherent) (g : Segment) :
    (s.commandHold g).1.SegmentsCoherent := by
  unfold Part.commandHold
  split
  case h_1 running =>
    have running : (s.seg g).control.state = .running := running
    have powered : (s.control g).powerOut = true := (h g).power_of running
    have stopped : (s.control g).settleTimer = none := (h g).settle_none (by simp [running])
    have scanned : (s.control g).scanPosition = none := (h g).scan_none (by simp [running])
    dsimp only
    refine .segment (g := g) (fun k _ => h k) { s.seg g with
      engine := { s.engine g with cycleTimer := none, markOwed := false }
      control := { s.control g with state := .held } } (fun k hk => ?_) (by cases g <;> rfl) ?_
    · rw [Part.updateEngine_seg_ne _ _ _ _ hk, Part.enterState, Part.setFlags_seg, Part.updateControl_seg_ne _ _ _ _ hk]
    · exact {
        power := powered
        supply := fun _ => (h g).supply (by rw [running]; rfl)
        settle := by simp [stopped]
        scan := by simp [scanned]
        driver := (h g).driver
        timer := nofun
        owed := nofun
        rest := nofun }
  all_goals exact h

/-- R98, R166: RELEASE. -/
theorem Part.SegmentsCoherent.commandRelease (h : s.SegmentsCoherent) (g : Segment) :
    (s.commandRelease g).1.SegmentsCoherent := by
  unfold Part.commandRelease
  split
  case h_1 held =>
    have held : (s.seg g).control.state = .held := held
    dsimp only
    refine .segment (g := g) (fun k _ => h k) { s.seg g with
      engine := (s.engine g).callMark (s.control g).config
      control := { s.control g with state := .running } } (fun k hk => ?_) (by cases g <;> rfl)
      (.of_running rfl ((h g).power_of held) ((h g).supply (by rw [held]; rfl)) ((h g).settle_none (by simp [held]))
        ((h g).scan_none (by simp [held])) (Engine.Driven.callMark (h g).driver _))
    rw [Part.updateEngine_seg_ne _ _ _ _ hk, Part.enterState, Part.setFlags_seg, Part.updateControl_seg_ne _ _ _ _ hk]
  all_goals exact h

/-! ### The requests on segments, and the ports -/

theorem Part.SegmentsCoherent.ownConfigure (h : s.SegmentsCoherent) (f : RequestFrame) :
    (s.ownConfigure f).1.SegmentsCoherent := by
  unfold Part.ownConfigure
  split
  · split
    · exact h
    · split
      · exact h
      · split
        · exact h
        · dsimp only
          exact h.updateControl _ ⟨_, _, _, rfl⟩
  · exact h

theorem Part.SegmentsCoherent.ownStatus (h : s.SegmentsCoherent) (p : Port) (f : RequestFrame) :
    (s.ownStatus p f).1.SegmentsCoherent := by
  unfold Part.ownStatus
  split
  · split
    · exact h
    · dsimp only
      exact h.updatePort p _
  · exact h

theorem Part.SegmentsCoherent.ownPortConfigure (h : s.SegmentsCoherent) (p : Port) (f : RequestFrame) :
    (s.ownPortConfigure p f).1.SegmentsCoherent := by
  unfold Part.ownPortConfigure
  split
  · split
    · exact h
    · exact h
    · dsimp only
      exact h.updatePort p _
  · exact h

/-- A claim that changes no segment: what the ports hold, what goes out. -/
theorem Part.SegmentsCoherent.bus (h : s.SegmentsCoherent) (segA : t.segA = s.segA) (segB : t.segB = s.segB) :
    t.SegmentsCoherent :=
  h.ports fun g => by
    cases g
    · exact segA
    · exact segB

/-- R194: an operation of Port 0. -/
theorem Part.SegmentsCoherent.onPort0 {α : Type} (h : s.SegmentsCoherent) (tr : Spi α) (out : α → Part → List Byte)
    (b : α → Part → Buffer) : (s.onPort0 tr fun a s => s.transact (out a s) (b a s)).SegmentsCoherent := by
  cases tr with
  | rest a =>
    unfold Part.onPort0 Part.afterFall
    dsimp only
    split
    · exact h.bus rfl rfl
    · exact h
  | _ => exact h.bus rfl rfl

/-- R27, R157: in reset both segments are OFF and at rest, at any level of SxFLT. -/
theorem Part.heldInReset_segmentsCoherent (s : Part) : s.heldInReset.SegmentsCoherent := by
  intro g
  cases g
  · exact .of_unpowered rfl rfl rfl rfl rfl ⟨rfl, rfl, ⟨rfl, rfl⟩, rfl, rfl, rfl⟩
  · exact .of_unpowered rfl rfl rfl rfl rfl ⟨rfl, rfl, ⟨rfl, rfl⟩, rfl, rfl, rfl⟩

/-! ### Every command -/

/-- A request whose owner keeps the segments coherent. -/
theorem Part.SegmentsCoherent.takeRequest (h : s.SegmentsCoherent) {p : Port} {c : RequestCode}
    {owner : RequestFrame → Part × Answer} (owned : ∀ f, (owner f).1.SegmentsCoherent) :
    (s.takeRequest p c owner).SegmentsCoherent :=
  Part.takeRequest_keeps (P := Part.SegmentsCoherent) h fun f _ => (owned f).answer p f _ _

theorem Part.SegmentsCoherent.takeCommand (h : s.SegmentsCoherent) {p : Port} {c : SegmentCommand}
    {run : Segment → Part × Answer} (runs : ∀ g, (run g).1.SegmentsCoherent) : (s.takeCommand p c run).SegmentsCoherent :=
  Part.takeCommand_keeps (P := Part.SegmentsCoherent) h (fun _ f a hu => hu.answer p f a.status a.results) runs

end Segments

/-- Every command keeps the segments coherent. -/
theorem exec_keeps_segmentsCoherent (c : Instr) (s t : State) (hs : s.part.SegmentsCoherent) (h : exec c s = .next t) :
    t.part.SegmentsCoherent := by
  have claimed {f : Part → Part} (hf : (f s.part).SegmentsCoherent) (h : s.claim f = .next t) : t.part.SegmentsCoherent :=
    State.claim_keeps (P := Part.SegmentsCoherent) hs hf h
  have coasted {g : Segment} {f : Part → Engine → Engine} (hf : (s.part.engine g).Coasts (f s.part (s.part.engine g)))
      (h : (s.claim fun s => s.updateEngine g (f s)) = .next t) : t.part.SegmentsCoherent := claimed (hs.coasts g hf) h
  have asked {p : Port} {k : RequestCode} {owner : Part → RequestFrame → Part × Answer}
      (hf : ∀ f, (owner s.part f).1.SegmentsCoherent) (h : (s.claim fun s => s.takeRequest p k (owner s)) = .next t) :
      t.part.SegmentsCoherent := claimed (hs.takeRequest hf) h
  cases c
  all_goals dsimp only [exec] at h
  case lookup | scanFrom | read => exact claimed (hs.takeRequest fun _ => hs) h
  case insert p => exact asked (fun f => hs.ownInsert p f) h
  case amend p => exact asked (fun f => hs.ownAmend p f) h
  case write p => exact asked (fun f => hs.ownWrite p f) h
  case resume p => exact asked (fun f => hs.ownReturn p f _) h
  case restart p => exact asked (fun f => hs.ownReturn p f _) h
  case retire p => exact asked (fun f => hs.ownRetire p f) h
  case purge p => exact asked (fun _ => hs.ownPurge p) h
  case takeAttention p => exact asked (fun _ => hs.ownNotice p) h
  case stationQuery => exact asked (fun f => Part.onStation_keeps (P := Part.SegmentsCoherent) hs fun _ _ _ _ => hs) h
  case stationBar =>
    exact asked (fun f => Part.onStation_keeps (P := Part.SegmentsCoherent) hs fun g n e _ => hs.barStation g n e) h
  case stationUnbar =>
    refine asked (fun f => Part.onStation_keeps (P := Part.SegmentsCoherent) hs fun g n e _ => ?_) h
    split
    · exact hs.unbarStation g n e
    · exact hs
  case segmentConfigure p =>
    exact claimed (Part.takeConfigure_keeps (P := Part.SegmentsCoherent) hs fun f _ _ =>
      (hs.ownConfigure f).answer p f _ _) h
  case segmentCommandOn => exact claimed (hs.takeCommand hs.commandOn) h
  case segmentCommandOff => exact claimed (hs.takeCommand hs.commandOff) h
  case segmentCommandHold => exact claimed (hs.takeCommand hs.commandHold) h
  case segmentCommandRelease => exact claimed (hs.takeCommand hs.commandRelease) h
  case segmentStatus p => exact asked (fun f => hs.ownStatus p f) h
  case portConfigure p => exact asked (fun f => hs.ownPortConfigure p f) h
  case submit | collect | poll | unknownOperation => exact claimed (hs.onPort0 _ _ _) h
  case writeTransfer | readTransfer =>
    refine claimed ?_ h
    split <;> exact hs.bus rfl rfl
  case cycleTimerExpiry g => exact claimed (hs.expireCycle g) h
  case cycleStep g => exact claimed (hs.takeStep g) h
  case markEnd => exact coasted (f := fun s e => e.endMark (s.control _).config) (.endMark _ _) h
  case settlingEnd g => exact claimed (hs.endSettling g) h
  case exchangeStart g elapsed =>
    refine claimed ?_ h
    split
    · next may => exact hs.considerHead (Part.running_of_mayStart may) elapsed
    · exact hs
  case probeStart g elapsed =>
    refine claimed ?_ h
    split
    · next may =>
      simp only [Bool.and_eq_true] at may
      obtain ⟨⟨may, -⟩, -⟩ := may
      exact hs.considerProbe (Part.running_of_mayStart may) elapsed
    · exact hs
  case scanProbeStart g => exact claimed (hs.startScanProbe g) h
  case requestEnd => exact coasted (f := fun s e => e.endRequest (s.control _).config) (.endRequest _ _) h
  case replyWindowExpiry => exact coasted (f := fun s e => e.expireWindow (s.control _).config) (.expireWindow _ _) h
  case replyStart g line => exact coasted (f := fun s e => e.listen (s.control _).config line) (.listen _ _ _) h
  case characterReceived g elapsed before line =>
    exact coasted (f := fun s e => e.sampleCharacter (s.control _).config elapsed before line)
      (.sampleCharacter _ _ _ _ _) h
  case characterGapExpiry => exact coasted (f := fun s e => e.expireGap (s.control _).config) (.expireGap _ _) h
  case replyDeadlineExpiry =>
    exact coasted (f := fun s e => e.expireDeadline (s.control _).config) (.expireDeadline _ _) h
  case outcomeTaken g => exact claimed (hs.nextOutcome g) h
  case stationOutcome g => exact claimed (hs.nextStationOutcome g false) h
  case probeOutcome g => exact claimed (hs.nextStationOutcome g true) h
  case settleTimerExpiry g => exact claimed (hs.expireSettle g) h
  case stationTeardown g => exact claimed (hs.stationTeardown g) h
  case recordTeardown g => exact claimed (hs.recordTeardown g) h
  case supplyFault g level =>
    cases h
    exact hs.supply g level
  case reset | powerOn =>
    cases h
    exact s.part.heldInReset_segmentsCoherent
  case resetRelease adr =>
    cases h
    show (s.part.riseFromReset adr).SegmentsCoherent
    unfold Part.riseFromReset
    split
    · exact hs.bus rfl rfl
    · exact hs

/-- Settles O55: every command keeps the segments coherent, and so does every step. -/
theorem segmentsStayCoherent : Obligations.SegmentsStayCoherent := by
  intro s t hs h
  exact step_keeps (P := Part.SegmentsCoherent) (fun _ => id) exec_keeps_segmentsCoherent hs h

end Sys2Proof.Machine
end

section
/-! SUPPORT. The requests on a segment: SEGMENT_CONFIGURE, SEGMENT_COMMAND and SEGMENT_STATUS (R160 to R162, R166, R168, R171,
R172). -/

namespace Sys2Proof.Machine

/-! ### The settings (R160) -/

/-- R201: a byte names no bit rate, or one of the three. -/
theorem bitRateOf_eq (b : Byte) : bitRateOf b = if b ≠ 0 ∧ b ≠ 1 ∧ b ≠ 2 then none
    else some (if b = 0 then .kbit250 else if b = 1 then .mbit1 else .mbit2p5) := by
  unfold bitRateOf
  split <;> simp_all

/-- R160: the offset of the first setting that fails its check, in the terms of the spec's table. -/
def badSetting (rate high low window settle limit : Byte) : Option Byte :=
  let period := high.toNat * 256 + low.toNat
  if rate ≠ 0 ∧ rate ≠ 1 ∧ rate ≠ 2 then some 1
  else if period < 10 ∨ 2000 < period then some 2
  else if window.toNat < 16 then some 4
  else if settle = 0 then some 5
  else if limit = 0 ∨ 15 < limit.toNat then some 6
  else none

/-- R160: the five settings that pass their checks. -/
def settingsOf (rate high low window settle limit : Byte) : SegmentConfig where
  bitRate := if rate = 0 then .kbit250 else if rate = 1 then .mbit1 else .mbit2p5
  cyclePeriod := high.toNat * 256 + low.toNat
  replyWindow := window.toNat
  settleTime := settle.toNat
  silenceLimit := limit.toNat

/-- R160: what the checks make of the settings. -/
theorem configArgs_eq (rate high low window settle limit : Byte) : configArgs rate high low window settle limit =
    match badSetting rate high low window settle limit with
    | some offset => .error offset
    | none => .ok (settingsOf rate high low window settle limit) := by
  simp only [configArgs, badSetting, bitRateOf_eq, ofBe16, byte_toNat_eq_zero_iff, settingsOf]
  by_cases named : rate ≠ 0 ∧ rate ≠ 1 ∧ rate ≠ 2
  · simp only [if_pos named]
  · simp only [if_neg named]
    split_ifs <;> rfl

/-! ### SEGMENT_CONFIGURE (R160) -/

section Configure
variable {s : Part} {f : RequestFrame} {g : Segment} {rate high low window settle limit : Byte}

/-- R160: a byte that names no segment. -/
theorem Part.ownConfigure_noSegment {x : Byte} (args : f.args = [x, rate, high, low, window, settle, limit])
    (h : x ≠ 0 ∧ x ≠ 1) : s.ownConfigure f = (s, .badField 0) := by
  simp [Part.ownConfigure, args, (segmentOf_eq_none_iff x).mpr h]

variable (args : f.args = [segmentCode g, rate, high, low, window, settle, limit])
include args

/-- R160: the settings of a segment change in OFF alone. -/
theorem Part.ownConfigure_wrongState (h : (s.control g).state ≠ .off) :
    s.ownConfigure f = (s, .bare .wrongState) := by
  simp [Part.ownConfigure, args, segmentOf_segmentCode, h]

/-- R160: a setting that fails its check. -/
theorem Part.ownConfigure_badSetting (off : (s.control g).state = .off) {offset : Byte}
    (h : badSetting rate high low window settle limit = some offset) : s.ownConfigure f = (s, .badField offset) := by
  simp [Part.ownConfigure, args, segmentOf_segmentCode, off, configArgs_eq, h]

/-- R160: an acceptable request replaces all five settings. -/
theorem Part.ownConfigure_accepted (off : (s.control g).state = .off)
    (h : badSetting rate high low window settle limit = none) : s.ownConfigure f =
      (s.updateControl g fun c => { c with config := settingsOf rate high low window settle limit }, .bare .done) := by
  simp [Part.ownConfigure, args, segmentOf_segmentCode, off, configArgs_eq, h]

/-- Log 32: an acceptable request waits for the Station Directory's part of a teardown. -/
theorem Part.configureWaits_accepted (off : (s.control g).state = .off)
    (h : badSetting rate high low window settle limit = none) :
    s.configureWaits f = ((s.control g).stationTeardowns != 0) := by
  simp [Part.configureWaits, Part.ownConfigure_accepted args off h, args, segmentOf_segmentCode, Answer.bare]

end Configure

/-- A request that is refused does not wait. -/
theorem Part.configureWaits_refused {s t : Part} {f : RequestFrame} {a : Answer} (own : s.ownConfigure f = (t, a))
    (refused : a.status ≠ .done) : s.configureWaits f = false := by
  simp [Part.configureWaits, own, refused]

section Configure
variable {p : Port} {s : State} {f : RequestFrame} (standing : s.part.Standing p .segmentConfigure f)
include standing

/-- A SEGMENT_CONFIGURE that waits stands SUBMITTED. -/
theorem exec_segmentConfigure_waits (waits : s.part.configureWaits f = true) :
    exec (.segmentConfigure p) s = .next s := by
  obtain ⟨awake, submitted, -⟩ := standing
  refine (s.claim_awake (·.takeConfigure p) awake).trans ?_
  simp [Part.takeConfigure, submitted, waits, State.with]

/-- A SEGMENT_CONFIGURE that does not wait is taken as any request. -/
theorem exec_segmentConfigure {t : Part} {status : Status} {results : List Byte}
    (own : s.part.ownConfigure f = (t, ⟨status, results⟩)) (taken : s.part.configureWaits f = false) :
    exec (.segmentConfigure p) s = .next (s.with (t.answer p f status results)) := by
  refine (s.claim_awake (·.takeConfigure p) standing.1).trans (congrArg (fun t => Host.Outcome.next (s.with t)) ?_)
  simp only [Part.takeConfigure, standing.2.1, taken, Bool.false_eq_true, if_false,
    Part.takeRequest_standing _ _ _ _ _ standing, own]

/-- A SEGMENT_CONFIGURE that is refused changes nothing but its answer. -/
theorem exec_segmentConfigure_refused {status : Status} {results : List Byte}
    (own : s.part.ownConfigure f = (s.part, ⟨status, results⟩)) (refused : status ≠ .done) :
    exec (.segmentConfigure p) s = .next (s.with (s.part.answer p f status results)) :=
  exec_segmentConfigure standing own (Part.configureWaits_refused own refused)

end Configure

/-- Settles O26: the checks of R160 in their order, and the waiting of log 32. -/
theorem segmentConfigureAnswers : Obligations.SegmentConfigureAnswers := by
  intro p s f x rate high low window settle limit standing args
  refine ⟨fun hx => exec_segmentConfigure_refused standing (Part.ownConfigure_noSegment args hx) nofun, ?_⟩
  rintro g rfl period bad
  have checked : badSetting rate high low window settle limit = bad := rfl
  refine ⟨fun busy => ?_, fun off offset fails => ?_, fun off passes waits => ?_, fun off passes taken => ?_⟩
  · exact exec_segmentConfigure_refused standing (Part.ownConfigure_wrongState args busy) nofun
  · exact exec_segmentConfigure_refused standing
      (Part.ownConfigure_badSetting args off (checked.trans fails)) nofun
  · refine exec_segmentConfigure_waits standing ?_
    simpa [Part.configureWaits_accepted args off (checked.trans passes)] using waits
  · refine exec_segmentConfigure standing (Part.ownConfigure_accepted args off (checked.trans passes)) ?_
    simp [Part.configureWaits_accepted args off (checked.trans passes), taken]

/-! ### SEGMENT_COMMAND (R161) -/

/-- R189: a command byte names the command whose code it is. -/
theorem commandOf_code (row : SegmentCommand) : commandOf row.code = some row := by
  cases row <;> rfl

/-- R189: a byte above 3 names no command. -/
theorem commandOf_none {y : Byte} (h : 3 < y.toNat) : commandOf y = none := by
  unfold commandOf
  split
  case h_5 => rfl
  all_goals simp at h

/-- The command of the model that takes a row of the table of R161. -/
def SegmentCommand.instr (row : SegmentCommand) (p : Port) : Instr :=
  match row with
  | .on => .segmentCommandOn p
  | .off => .segmentCommandOff p
  | .hold => .segmentCommandHold p
  | .release => .segmentCommandRelease p

/-- R161: what a row does to a segment, and its answer. -/
def Part.runCommand (s : Part) (row : SegmentCommand) : Segment → Part × Answer :=
  match row with
  | .on => s.commandOn
  | .off => s.commandOff
  | .hold => s.commandHold
  | .release => s.commandRelease

theorem exec_instr (row : SegmentCommand) (p : Port) (s : State) :
    exec (row.instr p) s = s.claim fun s => s.takeCommand p row (s.runCommand row) := by
  cases row <;> rfl

section Command
variable {p : Port} {s : State} {f : RequestFrame} (standing : s.part.Standing p .segmentCommand f)
include standing

/-- R161: a row takes the frames whose command byte is its own, or is none (log 12). -/
theorem exec_segmentCommand (row : SegmentCommand) {x y : Byte} (args : f.args = [x, y])
    (named : y = row.code ∨ 3 < y.toNat) {t : Part} {status : Status} {results : List Byte}
    (own : s.part.ownCommand f (s.part.runCommand row) = (t, ⟨status, results⟩)) :
    exec (row.instr p) s = .next (s.with (t.answer p f status results)) := by
  have stands : f.commands row = true := by
    obtain rfl | none := named
    · simp [RequestFrame.commands, args, commandOf_code]
    · simp [RequestFrame.commands, args, commandOf_none none]
  rw [exec_instr]
  refine (s.claim_awake (fun s => s.takeCommand p row (s.runCommand row)) standing.1).trans
    (congrArg (fun t => Host.Outcome.next (s.with t)) ?_)
  simp only [Part.takeCommand, standing.2.1, stands, if_true, Part.takeRequest_standing _ _ _ _ _ standing, own]

/-- R161: a row runs on the segment that its frame names. -/
theorem exec_segmentCommand_runs (row : SegmentCommand) {g : Segment} (args : f.args = [segmentCode g, row.code])
    {t : Part} {status : Status} (run : s.part.runCommand row g = (t, .bare status)) :
    exec (row.instr p) s = .next (s.with (t.answer p f status [])) := by
  refine exec_segmentCommand standing row args (Or.inl rfl) ?_
  simp only [Part.ownCommand, args, segmentOf_segmentCode, commandOf_code, reduceCtorEq, if_false, run]
  rfl

end Command

@[simp] theorem Part.enterState_control (s : Part) (g : Segment) (new : SegmentState) :
    (s.enterState g new).control g = { s.control g with state := new } := by
  cases g <;> rfl

theorem Part.tearDown_state (s : Part) (g : Segment) (new : SegmentState) : ((s.tearDown g new).control g).state = new := by
  cases g <;> rfl

/-- R161: the table, by row and state. -/
def SegmentCommand.table (row : SegmentCommand) (now : SegmentState) : Status × SegmentState :=
  match row, now with
  | .on, .off => (.done, .powering)
  | .on, .powering | .on, .scanning | .on, .running => (.segmentBusy, now)
  | .on, .held | .on, .fault => (.wrongState, now)
  | .off, _ => (.done, .off)
  | .hold, .running => (.done, .held)
  | .release, .held => (.done, .running)
  | .hold, _ | .release, _ => (.wrongState, now)

/-- R161: each row answers by the table, and leaves the segment as it was where the state stays. -/
theorem Part.runCommand_table (s : Part) (row : SegmentCommand) (g : Segment)
    (clear : row = .on → (s.control g).state = .off → (s.control g).faultIn = false) :
    ∃ t, s.runCommand row g = (t, .bare (row.table (s.control g).state).1) ∧
      (t.control g).state = (row.table (s.control g).state).2 ∧
      ((row.table (s.control g).state).2 = (s.control g).state → t = s) := by
  cases row
  case on =>
    cases now : (s.control g).state <;> simp [Part.runCommand, Part.commandOn, SegmentCommand.table, now, clear]
  case off =>
    cases now : (s.control g).state <;>
      simp [Part.runCommand, Part.commandOff, SegmentCommand.table, now, Part.tearDown_state]
  case hold =>
    cases now : (s.control g).state <;> simp [Part.runCommand, Part.commandHold, SegmentCommand.table, now]
  case release =>
    cases now : (s.control g).state <;> simp [Part.runCommand, Part.commandRelease, SegmentCommand.table, now]

/-- Settles O27: the checks by the two bytes of the arguments, then the table. -/
theorem segmentCommandTable : Obligations.SegmentCommandTable := by
  intro p s f x y row standing args command
  have same : command = row.instr p := by cases row <;> rfl
  rw [same]
  refine ⟨fun hx named => ?_, fun hx unnamed => ?_, ?_⟩
  · refine exec_segmentCommand standing row args named ?_
    simp only [Part.ownCommand, args, (segmentOf_eq_none_iff x).mpr hx]
    rfl
  · obtain ⟨hx0, hx1⟩ | ⟨g, rfl⟩ := segmentOf_cases x
    · exact absurd hx (not_or.mpr ⟨hx0, hx1⟩)
    · refine exec_segmentCommand standing row args (Or.inr unnamed) ?_
      simp only [Part.ownCommand, args, segmentOf_segmentCode, commandOf_none unnamed, if_true]
      rfl
  · intro g hx hy now table clear
    have entry : table = row.table now := by
      simp only [table]
      cases row <;> cases now <;> rfl
    rw [entry]
    subst hx hy
    obtain ⟨t, run, state, stays⟩ := s.part.runCommand_table row g clear
    exact ⟨t, exec_segmentCommand_runs standing row args run, state, stays⟩

/-! ### ON and OFF (R162, R167, R168, R171) -/

/-- R99, R167, R168: what a teardown does to the part, field by field. -/
theorem Part.tearDown_eq (s : Part) (g : Segment) (new : SegmentState) : s.tearDown g new =
    ((s.updateControl g fun c => { c with
      state := new
      powerOut := false
      settleTimer := none
      scanPosition := none
      stationTeardowns := c.stationTeardowns + 1
      recordTeardowns := c.recordTeardowns ++ [(s.engine g).exchange] }).setFlags g).updateEngine g fun e => { e with
        active := []
        held := []
        exchange := none
        state := .ready
        cycleTimer := none
        cycleClosed := false
        probeTaken := false
        probeCursor := 1
        markOwed := false
        frame := []
        stepsDue := 0 } := by
  cases g <;> rfl

/-- R162: what ON makes of a segment whose SxFLT is deasserted. -/
def Part.poweredUp (s : Part) (g : Segment) : Part :=
  (s.updateControl g fun c => { c with
    state := .powering
    powerOut := true
    settleTimer := some (c.config.settleTime * 200000)
    scanPosition := none }).setFlags g

/-- R162, R167: ON in OFF. -/
theorem Part.commandOn_off {s : Part} {g : Segment} (off : (s.control g).state = .off) : s.commandOn g =
    (if (s.control g).faultIn then (s.poweredUp g).tearDown g .fault else s.poweredUp g, .bare .done) := by
  have powered : (s.updateControl g fun c => { c with
      powerOut := true, settleTimer := some c.config.settleLength, scanPosition := none }).enterState g .powering =
      s.poweredUp g := by cases g <;> rfl
  simp only [Part.commandOn, off, powered]

/-- Settles O28: ON by the level of SxFLT, OFF by the state. -/
theorem commandsOnAndOff : Obligations.CommandsOnAndOff := by
  intro p s f g standing torn powering now
  have tears (u : Part) (new : SegmentState) : u.tearDown g new = torn u new := Part.tearDown_eq u g new
  refine ⟨fun args off => ⟨fun clear => ?_, fun asserted => ?_⟩, fun args => ⟨fun off => ?_, fun fault => ?_,
    fun notOff notFault => ?_⟩⟩
  · refine exec_segmentCommand_runs standing .on args ((Part.commandOn_off off).trans ?_)
    rw [clear]
    rfl
  · refine exec_segmentCommand_runs standing .on args ((Part.commandOn_off off).trans ?_)
    rw [asserted, if_pos rfl, tears]
    rfl
  · refine exec_segmentCommand_runs standing .off args ?_
    simp only [Part.runCommand, Part.commandOff, show (s.part.control g).state = .off from off]
  · refine exec_segmentCommand_runs standing .off args ?_
    simp only [Part.runCommand, Part.commandOff, show (s.part.control g).state = .fault from fault]
    rfl
  · refine exec_segmentCommand_runs standing .off args ?_
    rw [← tears]
    simp only [Part.runCommand, Part.commandOff]
    split
    · next off => exact absurd off notOff
    · next fault => exact absurd fault notFault
    all_goals rfl

/-! ### HOLD and RELEASE (R98, R166) -/

/-- R77, R98: a MARK called for while the engine is not READY is owed. -/
theorem Engine.callMark_busy {e : Engine} (c : SegmentConfig) (busy : e.state ≠ .ready) :
    e.callMark c = { e with markOwed := true } :=
  if_neg busy

/-- R98, R166: RELEASE in HELD. -/
theorem Part.commandRelease_held {s : Part} {g : Segment} (held : (s.control g).state = .held) : s.commandRelease g =
    (((s.updateControl g fun c => { c with state := .running }).setFlags g).updateEngine g fun _ =>
      (s.engine g).callMark (s.control g).config, .bare .done) := by
  simp only [Part.commandRelease, held]
  cases g <;> rfl

/-- Settles O29: HOLD in RUNNING, and RELEASE in HELD by the engine's state. -/
theorem commandsHoldAndRelease : Obligations.CommandsHoldAndRelease := by
  intro p s f g standing c into
  refine ⟨fun args running => ?_, fun args held => ⟨fun ready => ?_, fun busy => ?_⟩⟩
  · refine exec_segmentCommand_runs standing .hold args ?_
    simp only [Part.runCommand, Part.commandHold, running]
    rfl
  · refine exec_segmentCommand_runs standing .release args ((Part.commandRelease_held held).trans ?_)
    rw [Engine.callMark_ready _ ready, Engine.sendMark_eq]
    cases g <;> rfl
  · refine exec_segmentCommand_runs standing .release args ((Part.commandRelease_held held).trans ?_)
    rw [Engine.callMark_busy _ busy]
    cases g <;> rfl

/-! ### SEGMENT_STATUS (R172) -/

/-- R172: the results, item by item. -/
theorem Part.segmentResults_eq (s : Part) (g : Segment) : s.segmentResults g =
    [segmentCode g, (s.control g).state.code, (s.control g).config.bitRate.code,
      BitVec.ofNat 8 ((s.control g).config.cyclePeriod / 256), BitVec.ofNat 8 (s.control g).config.cyclePeriod,
      BitVec.ofNat 8 (s.control g).config.replyWindow, BitVec.ofNat 8 (s.control g).config.settleTime,
      BitVec.ofNat 8 (s.control g).config.silenceLimit, BitVec.ofNat 8 ((s.engine g).cycleNumber.toNat / 256),
      BitVec.ofNat 8 (s.engine g).cycleNumber.toNat,
      BitVec.ofNat 8 ((s.seg g).stations.filter (·.state == .present)).length,
      if (s.control g).faultIn then 1 else 0] := by
  simp [Part.segmentResults, SegmentConfig.results, SegmentUnit.presentCount, List.countP_eq_length_filter, num8, be16,
    yesNo]

theorem exec_segmentStatus {p : Port} {s : State} {f : RequestFrame} (standing : s.part.Standing p .segmentStatus f)
    {t : Part} {status : Status} {results : List Byte} (own : s.part.ownStatus p f = (t, ⟨status, results⟩)) :
    exec (.segmentStatus p) s = .next (s.with (t.answer p f status results)) :=
  s.claim_answered p _ f (fun s => s.ownStatus p) standing own

/-- Settles O30: the check of the segment, and the results. -/
theorem segmentStatusReports : Obligations.SegmentStatusReports := by
  intro p s f x standing args
  refine ⟨fun hx => exec_segmentStatus standing ?_, ?_⟩
  · simp only [Part.ownStatus, args, (segmentOf_eq_none_iff x).mpr hx]
    rfl
  · rintro g rfl c cycle
    refine exec_segmentStatus standing ?_
    simp only [Part.ownStatus, args, segmentOf_segmentCode, Part.segmentResults_eq]
    rfl

end Sys2Proof.Machine
end

section
/-! SUPPORT. The expiry of the settle timer (R163 to R165), and SxFLT (R167). -/

namespace Sys2Proof.Machine

section Settle
variable {s : Part} {g : Segment}

/-- R163, R164: POWERING ends, and the scan begins at station 1. -/
def Part.beginsScan (s : Part) (g : Segment) : Part :=
  (s.updateControl g fun c => { c with state := .scanning, settleTimer := none }).setFlags g

theorem Part.beginsScan_stationState (s : Part) (g h : Segment) (n : Nat) :
    (s.beginsScan g).stationState h n = s.stationState h n := by
  simp [Part.beginsScan, Part.stationState, Part.station]

theorem Part.expireSettle_powering {time : Nat} (powering : (s.control g).state = .powering)
    (runs : (s.control g).settleTimer = some time) : s.expireSettle g = (s.beginsScan g).scanFrom g 1 := by
  have entered : (s.updateControl g fun c => { c with settleTimer := none }).enterState g .scanning = s.beginsScan g := by
    cases g <;> rfl
  simp [Part.expireSettle, powering, runs, entered]

/-- R164: the scan begins at the first station that is ABSENT or SILENT. -/
theorem Part.beginsScan_some {n : Nat} (first : 1 ≤ n) (last : n ≤ 30) (probed : (s.stationState g n).probed = true)
    (passed : ∀ m, 1 ≤ m → m < n → (s.stationState g m).probed = false) : (s.beginsScan g).scanFrom g 1 =
      (s.updateControl g fun c => { c with state := .scanning, settleTimer := none, scanPosition := some n }).setFlags g := by
  have found : (s.beginsScan g).scanNext g 1 = some n :=
    Part.scanNext_some first last (by rwa [Part.beginsScan_stationState]) fun m hm before => by
      rw [Part.beginsScan_stationState]
      exact passed m hm before
  rw [Part.scanFrom, found]
  cases g <;> rfl

/-- R165: where no station is ABSENT or SILENT, the scan ends at once. -/
theorem Part.beginsScan_none (passed : ∀ n, 1 ≤ n → n ≤ 30 → (s.stationState g n).probed = false)
    (ready : (s.engine g).state = .ready) : (s.beginsScan g).scanFrom g 1 =
      ((s.updateControl g fun c => { c with state := .running, settleTimer := none, scanPosition := none }).setFlags
        g).updateEngine g fun _ => (s.engine g).sendMark (s.control g).config 0 := by
  have none : (s.beginsScan g).scanNext g 1 = none := Part.scanNext_none fun n hn last => by
    rw [Part.beginsScan_stationState]
    exact passed n hn last
  have ends : (s.beginsScan g).scanFrom g 1 = (s.beginsScan g).endScan g := by rw [Part.scanFrom, none]
  refine ends.trans ((Part.endScan_ready ?_).trans ?_)
  · rw [Part.beginsScan, Part.setFlags_engine, Part.updateControl_engine]
    exact ready
  · cases g <;> rfl

end Settle

section Supply
variable {s : Part} {g : Segment}

theorem SegmentState.powered_iff (x : SegmentState) : x.powered = true ↔ x ≠ .off ∧ x ≠ .fault := by
  cases x <;> simp [SegmentState.powered]

/-- R167, log 8: the level is followed, and nothing else changes. -/
theorem Part.supply_followed {level : Bool}
    (h : level = false ∨ (s.control g).state = .off ∨ (s.control g).state = .fault) :
    s.supply g level = s.updateControl g fun c => { c with faultIn := level } := by
  have unwatched : ¬(level && (s.control g).state.powered) = true := by
    rw [Bool.and_eq_true, SegmentState.powered_iff]
    rintro ⟨asserted, notOff, notFault⟩
    obtain clear | off | fault := h
    · simp [clear] at asserted
    · exact notOff off
    · exact notFault fault
  exact if_neg unwatched

/-- R167: SxFLT asserted tears a powered segment down. -/
theorem Part.supply_tears (notOff : (s.control g).state ≠ .off) (notFault : (s.control g).state ≠ .fault) :
    s.supply g true = (s.updateControl g fun c => { c with faultIn := true }).tearDown g .fault :=
  if_pos ((SegmentState.powered_iff _).mpr ⟨notOff, notFault⟩)

end Supply

/-- Settles O52: the settle timer by the first station to be probed, SxFLT by its level and the state. -/
theorem settleTimerAndSupplyFault : Obligations.SettleTimerAndSupplyFault := by
  intro g s c into
  refine ⟨fun time awake powering runs => ?_, ?_⟩
  · have expires {t : Part} (h : (s.part.beginsScan g).scanFrom g 1 = t) : exec (.settleTimerExpiry g) s = .next (s.with t) :=
      (s.claim_awake (·.expireSettle g) awake).trans
        (congrArg (fun t => Host.Outcome.next (s.with t)) ((Part.expireSettle_powering powering runs).trans h))
    refine ⟨fun n first last probed passed => expires (Part.beginsScan_some first last probed passed),
      fun passed ready => expires ((Part.beginsScan_none passed ready).trans ?_)⟩
    rw [Engine.sendMark_eq]
    cases g <;> rfl
  · intro level u
    refine ⟨fun followed => ?_, fun asserted notOff notFault => ?_⟩
    · exact congrArg (fun t => Host.Outcome.next (s.with t)) (Part.supply_followed followed)
    · subst asserted
      exact congrArg (fun t => Host.Outcome.next (s.with t)) (Part.supply_tears notOff notFault)

end Sys2Proof.Machine
end

section
/-! SUPPORT. The Station Directory's part of a teardown (R168, R169, R175). -/

namespace Sys2Proof.Machine

/-! ### What a claim puts on the lists (R175) -/

/-- R174, R175: every slot that stands on a port's list since `s` holds a record that the port owns. -/
def Part.Notices (s t : Part) : Prop :=
  ∀ p n, n ∈ (t.port p).attention → n ∉ (s.port p).attention → ∃ r, t.record n = some r ∧ r.owner = p

/-- R175: slots have joined the lists since `s`, and none has left them. -/
structure Part.Posts (s t : Part) : Prop where
  stay : ∀ p n, n ∈ (s.port p).attention → n ∈ (t.port p).attention
  notices : s.Notices t

theorem Record.owner_of_fixed {q r : Record} (h : r.fixed = q.fixed) : r.owner = q.owner := by
  obtain ⟨-, owner, -, -, -, -, -⟩ := (Record.fixed_eq_iff r q).mp h
  exact owner

section Posts
variable {s t : Part}

theorem Part.Notices.refl (s : Part) : s.Notices s := fun _ _ h k => absurd h k

theorem Part.Posts.refl (s : Part) : s.Posts s := ⟨fun _ _ => id, .refl s⟩

/-- A change that touches no record and no list. -/
theorem Part.Notices.congr {u : Part} (h : s.Notices t) (records : ∀ n, u.record n = t.record n)
    (lists : ∀ p, (u.port p).attention = (t.port p).attention) : s.Notices u := by
  intro p n there new
  rw [records]
  exact h p n (lists p ▸ there) new

theorem Part.Posts.congr {u : Part} (h : s.Posts t) (records : ∀ n, u.record n = t.record n)
    (lists : ∀ p, (u.port p).attention = (t.port p).attention) : s.Posts u :=
  ⟨fun p n there => lists p ▸ h.stay p n there, h.notices.congr records lists⟩

/-- R175: the slots that one claim on many records puts on a list are those of the port's own records. -/
theorem Part.Notices.forRecords (h : s.Notices t) (test : Nat → Record → Bool) {f : Nat → Record → Verdict}
    (fixed : ∀ n r, (f n r).1.fixed = r.fixed) : s.Notices (t.forRecords test f) := by
  intro p n there new
  have owned : ∃ r, t.record n = some r ∧ r.owner = p := by
    rw [Part.forRecords_port, List.mem_append, Part.mem_slotsWhere] at there
    obtain there | ⟨r, hr, raised⟩ := there
    · exact h p n there new
    · simp only [Bool.and_eq_true, beq_iff_eq] at raised
      obtain ⟨⟨⟨-, owner⟩, -⟩, -⟩ := raised
      exact ⟨r, hr, (Record.owner_of_fixed (fixed n r)).symm.trans owner⟩
  obtain ⟨r, hr, owner⟩ := owned
  refine ⟨_, by rw [Part.forRecords_record, hr, Option.map_some], ?_⟩
  split
  · exact (Record.owner_of_fixed ((Record.withReasons_fixed _ _).trans (fixed n r))).trans owner
  · exact owner

theorem Part.Posts.forRecords (h : s.Posts t) (test : Nat → Record → Bool) {f : Nat → Record → Verdict}
    (fixed : ∀ n r, (f n r).1.fixed = r.fixed) : s.Posts (t.forRecords test f) where
  stay := fun p n there => by
    rw [Part.forRecords_port]
    exact List.mem_append_left _ (h.stay p n there)
  notices := h.notices.forRecords test fixed

theorem Part.Posts.departRecords (h : s.Posts t) (g : Segment) (k : Nat) (c : Condition) :
    s.Posts (t.departRecords g k c) :=
  (h.forRecords (fun _ r => r.onStation g k) (departureVerdict_fixed (t.engine g) c)).congr
    (by simp [Part.departRecords]) (by simp [Part.departRecords])

theorem Part.Posts.withStation (h : s.Posts t) (g : Segment) (k : Nat) (e : Station) : s.Posts (t.withStation g k e) :=
  h.congr (by simp) (by simp)

theorem Part.Posts.setFlags (h : s.Posts t) (g : Segment) : s.Posts (t.setFlags g) := h.congr (by simp) (by simp)

theorem Part.Posts.attach (h : s.Posts t) (g : Segment) (k : Nat) (i : Identity) (notice : Bool) :
    s.Posts (t.attach g k i notice) :=
  Part.Posts.setFlags (((h.withStation g k ⟨.present, some i, 0⟩).forRecords (fun _ r => r.onStation g k)
    (attachVerdict_fixed i notice)).congr (by simp [Part.dequeueHalted]) (by simp [Part.dequeueHalted])) g

/-- R143 to R149: the outcomes at the Station Directory put slots on lists and take none off. -/
theorem Part.Posts.stationTakes (h : s.Posts t) (g : Segment) (o : ExchangeOutcome) : s.Posts (t.stationTakes g o) := by
  unfold Part.stationTakes
  split
  · unfold Part.probeResult
    split
    · split
      · exact h.attach g _ _ _
      · exact h.attach g _ _ _
      · exact h
      · exact h
    · exact h
  · unfold Part.stationResult
    split
    · exact h
    · split
      · dsimp only
        split
        · exact ((h.withStation g _ _).departRecords g _ _).setFlags g
        · exact h.withStation g _ _
      · exact h

end Posts

/-- R175: where no slot has left a list, the slots that a claim put there stand in ascending order behind the others. -/
theorem Part.Posts.ordered {s t : Part} (h : s.Posts t) (p : Port) : ∃ new : List Nat,
    ((s.inSlotOrder t).port p).attention = (s.port p).attention ++ new ∧ new.Pairwise (· < ·) ∧
      ∀ n, n ∈ new ↔ n ∈ (t.port p).attention ∧ n ∉ (s.port p).attention := by
  obtain ⟨new, lists, sorted, mem⟩ := Part.inSlotOrder_gains s t p fun n there out =>
    (h.notices p n there out).imp fun _ hr => hr.1
  have all : (s.port p).attention.filter (t.port p).attention.contains = (s.port p).attention :=
    List.filter_eq_self.mpr fun n hn => List.contains_iff_mem.mpr (h.stay p n hn)
  exact ⟨new, by rw [lists, all], sorted, mem⟩

theorem Part.inSlotOrder_sameBus (s t : Part) : t.SameBus (s.inSlotOrder t) := ⟨rfl, rfl, rfl, rfl, rfl, rfl, rfl⟩

/-- Ordering the slots of a claim changes no buffer, flag or enable. -/
theorem Part.inSlotOrder_flagged (s t : Part) : t.PortsFlagged (s.inSlotOrder t) fun _ => False := by
  intro p
  rw [Part.inSlotOrder_port]
  exact ⟨rfl, rfl, rfl, fun g => by cases g <;> simp [PortUnit.flag]⟩

@[simp] theorem Part.inSlotOrder_refCount (s t : Part) (g : Segment) (k : Nat) :
    (s.inSlotOrder t).refCount g k = t.refCount g k := rfl

@[simp] theorem Part.inSlotOrder_station (s t : Part) (g : Segment) (k : Nat) :
    (s.inSlotOrder t).station g k = t.station g k := by
  simp [Part.station]

@[simp] theorem Part.inSlotOrder_engine (s t : Part) (g : Segment) : (s.inSlotOrder t).engine g = t.engine g := by
  simp [Part.engine]

@[simp] theorem Part.inSlotOrder_control (s t : Part) (g : Segment) : (s.inSlotOrder t).control g = t.control g := by
  simp [Part.control]

/-! ### The stations of the segment at the teardown (R169) -/

section Torn
variable (s : Part) (g : Segment)

/-- R169: what a teardown makes of a station's entry. -/
theorem tornStation_eq (used : Bool) (e : Station) : tornStation used e =
    if e.state = .barred then { e with silence := 0 } else ⟨.absent, if used then e.identity else none, 0⟩ := by
  cases hs : e.state <;> simp [tornStation, hs]

/-- R150, R169: a station is lost where one is PRESENT or SILENT. -/
theorem Part.someStationLost_iff : (s.seg g).someStationLost = true ↔
    ∃ k e, s.station g k = some e ∧ (e.state = .present ∨ e.state = .silent) := by
  simp only [SegmentUnit.someStationLost, List.any_eq_true, Bool.or_eq_true, beq_iff_eq]
  constructor
  · rintro ⟨e, he, lost⟩
    obtain ⟨i, hi⟩ := List.mem_iff_getElem?.mp he
    exact ⟨i + 1, e, by simpa [Part.station] using hi, lost⟩
  · rintro ⟨k, e, he, lost⟩
    unfold Part.station at he
    split at he
    · cases he
    · exact ⟨e, List.mem_of_getElem? he, lost⟩

/-- R169: the segment with its stations torn down, before its flags are set. -/
def Part.tornStations : Part :=
  s.withSeg g { s.seg g with stations := (s.seg g).stations.mapIdx fun i e => tornStation (s.refCount g (i + 1) != 0) e }

theorem Part.tearStations_eq : s.tearStations g =
    if (s.seg g).someStationLost then (s.tornStations g).setFlags g else s.tornStations g := rfl

/-- What holds of the segment with its stations torn down, flags set or not. -/
theorem Part.tearStations_keeps {P : Part → Prop} (torn : P (s.tornStations g))
    (setFlags : P ((s.tornStations g).setFlags g)) : P (s.tearStations g) := by
  rw [Part.tearStations_eq]
  split
  · exact setFlags
  · exact torn

theorem Part.tearStations_record (n : Nat) : (s.tearStations g).record n = s.record n :=
  s.tearStations_keeps g (P := fun t => t.record n = s.record n) (by simp [Part.tornStations])
    (by simp [Part.tornStations])

theorem Part.tearStations_attention (p : Port) : ((s.tearStations g).port p).attention = (s.port p).attention :=
  s.tearStations_keeps g (P := fun t => (t.port p).attention = (s.port p).attention) (by simp [Part.tornStations])
    (by simp [Part.tornStations])

theorem Part.tearStations_engine (h : Segment) : (s.tearStations g).engine h = s.engine h :=
  s.tearStations_keeps g (P := fun t => t.engine h = s.engine h) (s.withStations_engine g h _)
    ((Part.setFlags_engine ..).trans (s.withStations_engine g h _))

theorem Part.tearStations_control (h : Segment) : (s.tearStations g).control h = s.control h :=
  s.tearStations_keeps g (P := fun t => t.control h = s.control h) (s.withStations_control g h _)
    ((Part.setFlags_control ..).trans (s.withStations_control g h _))

theorem Part.tearStations_sameOther : s.SameOther (s.tearStations g) g := by
  intro h hg
  exact s.tearStations_keeps g (P := fun t => t.seg h = s.seg h) (Part.withSeg_seg_ne _ _ _ _ hg)
    ((Part.setFlags_seg ..).trans (Part.withSeg_seg_ne _ _ _ _ hg))

theorem Part.tearStations_sameBus : s.SameBus (s.tearStations g) :=
  s.tearStations_keeps g (P := s.SameBus) (by simp [Part.SameBus, Part.tornStations])
    (by simp [Part.SameBus, Part.tornStations])

/-- R169: every station's entry at the teardown. -/
theorem Part.tearStations_entry (k : Nat) :
    (s.tearStations g).station g k = (s.station g k).map (tornStation (s.refCount g k != 0)) := by
  have torn : (s.tornStations g).station g k = (s.station g k).map (tornStation (s.refCount g k != 0)) := by
    rcases k with _ | i
    · rfl
    · simp [Part.station, Part.tornStations]
  exact s.tearStations_keeps g (P := fun t => t.station g k = (s.station g k).map (tornStation (s.refCount g k != 0)))
    torn ((Part.setFlags_station ..).trans torn)

/-- R150, R169: the flags are set where the teardown changes the state of some station. -/
theorem Part.tearStations_flagged : s.PortsFlagged (s.tearStations g) fun h =>
    h = g ∧ ∃ k e, s.station g k = some e ∧ (e.state = .present ∨ e.state = .silent) := by
  have torn : s.PortsFlagged (s.tornStations g) fun _ => False := .of_ports fun p => by simp [Part.tornStations]
  rw [Part.tearStations_eq]
  split
  · next lost =>
    exact (torn.trans (Part.setFlags_flagged _ g)).congr fun h => by
      simp [(s.someStationLost_iff g).mp lost]
  · next kept =>
    exact torn.congr fun h => iff_of_false id fun ⟨_, lost⟩ => kept ((s.someStationLost_iff g).mpr lost)

end Torn

/-! ### The part taken (R168, R169) -/

/-- R169: the outcomes that wait are taken, and put slots on lists alone. -/
theorem Part.posts_stationBacklog (s : Part) (g : Segment) (waiting : List ExchangeOutcome) (f : Engine → Engine) :
    s.Posts (waiting.foldl (fun t o => t.stationTakes g o) (s.updateEngine g f)) :=
  List.foldlRecOn (motive := s.Posts) _ _ ((Part.Posts.refl s).congr (by simp) (by simp)) fun _ h o _ => h.stationTakes g o

/-- R168, R169: the part of the Station Directory, by the part `u` that the waiting outcomes leave. -/
theorem Part.stationTeardown_eq {s : Part} {g : Segment} {left : Nat} (waits : (s.control g).stationTeardowns = left + 1)
    {handed u : Part} (hh : handed = s.updateControl g fun c => { c with stationTeardowns := left })
    (hu : u = (s.engine g).toStations.foldl (fun t o => t.stationTakes g o)
      (handed.updateEngine g fun e => { e with toStations := [] })) :
    s.stationTeardown g = ((handed.inSlotOrder u).holdStanding g).tearStations g := by
  subst hh hu
  simp only [Part.stationTeardown, waits, Part.stationBacklog, Part.updateControl_engine]

/-- Settles O53: the outcomes that wait, the order of their slots, the standing, and the stations torn down. -/
theorem stationTeardownActs : Obligations.StationTeardownActs := by
  intro g s left awake waits waiting u
  obtain ⟨handed, hh⟩ : ∃ handed, handed = s.part.updateControl g fun c => { c with stationTeardowns := left } := ⟨_, rfl⟩
  have hu : u = waiting.foldl (fun t o => t.stationTakes g o)
      (handed.updateEngine g fun e => { e with toStations := [] }) := by rw [hh]
  have lists (p : Port) : (handed.port p).attention = (s.part.port p).attention := by rw [hh, Part.updateControl_port]
  have posts : handed.Posts u := hu ▸ handed.posts_stationBacklog g waiting _
  have held (p : Port) : ((handed.inSlotOrder u).holdStanding g).port p = (handed.inSlotOrder u).port p :=
    Part.updateEngine_port ..
  have present (k : Nat) : (handed.inSlotOrder u).present g k = u.present g k := by
    simp [Part.present, Part.stationState]
  have count (k : Nat) : ((handed.inSlotOrder u).holdStanding g).refCount g k = u.refCount g k :=
    (Part.updateEngine_refCount ..).trans (Part.inSlotOrder_refCount ..)
  have entry (k : Nat) : ((handed.inSlotOrder u).holdStanding g).station g k = u.station g k :=
    (Part.updateEngine_station ..).trans (Part.inSlotOrder_station ..)
  refine ⟨_, (s.claim_awake (·.stationTeardown g) awake).trans
    (congrArg (fun t => Host.Outcome.next (s.with t)) (Part.stationTeardown_eq waits hh hu)), fun k e he => ?_,
    fun n => ?_, fun p => ?_, ?_, ?_, fun h hg => ?_, ?_, ?_⟩
  · rw [Part.tearStations_entry, entry, he, Option.map_some, count, tornStation_eq]
    simp only [bne_iff_ne, ne_eq, ite_not]
  · rw [Part.tearStations_record, Part.holdStanding, Part.updateEngine_record, Part.inSlotOrder_record]
  · rw [Part.tearStations_attention, held, ← lists]
    exact posts.ordered p
  · rw [Part.tearStations_engine, Part.holdStanding, Part.updateEngine_engine, Part.inSlotOrder_engine]
    simp only [present]
  · rw [Part.tearStations_control, Part.holdStanding, Part.updateEngine_control, Part.inSlotOrder_control]
  · rw [Part.tearStations_sameOther _ g h hg, Part.holdStanding, Part.updateEngine_seg_ne _ _ _ _ hg, Part.inSlotOrder_seg]
  · exact ((Part.inSlotOrder_sameBus ..).trans (Part.updateEngine_sameBus ..)).trans (Part.tearStations_sameBus ..)
  · have ordered := (Part.inSlotOrder_flagged handed u).trans (.of_ports held)
    refine (ordered.trans (Part.tearStations_flagged _ g)).congr fun h => ?_
    simp only [entry, false_or]

end Sys2Proof.Machine
end

section
/-! SUPPORT. The Table Controller's part of a teardown (R168, R170, R139, R175). -/

namespace Sys2Proof.Machine

/-! ### Parts that differ in their engines and controllers alone -/

/-- The table, the ports, the stations and the buses are the same. -/
structure Part.Alike (s t : Part) : Prop where
  slots : t.slots = s.slots
  ports : ∀ p, t.port p = s.port p
  stations : ∀ g, (t.seg g).stations = (s.seg g).stations
  bus : s.SameBus t

section Alike
variable {s t u : Part}

theorem Part.Alike.refl (s : Part) : s.Alike s := ⟨rfl, fun _ => rfl, fun _ => rfl, .refl s⟩

theorem Part.SameBus.symm (h : s.SameBus t) : t.SameBus s := by
  obtain ⟨low, address, phase, out, acks, out1, draws⟩ := h
  exact ⟨low.symm, address.symm, phase.symm, out.symm, acks.symm, out1.symm, draws.symm⟩

theorem Part.Alike.symm (h : s.Alike t) : t.Alike s :=
  ⟨h.slots.symm, fun p => (h.ports p).symm, fun g => (h.stations g).symm, h.bus.symm⟩

theorem Part.Alike.trans (h : s.Alike t) (k : t.Alike u) : s.Alike u :=
  ⟨k.slots.trans h.slots, fun p => (k.ports p).trans (h.ports p), fun g => (k.stations g).trans (h.stations g),
    h.bus.trans k.bus⟩

theorem Part.alike_updateEngine (s : Part) (g : Segment) (f : Engine → Engine) : s.Alike (s.updateEngine g f) :=
  ⟨by simp, by simp, by simp, s.updateEngine_sameBus g f⟩

theorem Part.alike_updateControl (s : Part) (g : Segment) (f : Control → Control) : s.Alike (s.updateControl g f) :=
  ⟨by simp, by simp, by simp, by simp [Part.SameBus]⟩

theorem Part.alike_place (s : Part) (g : Segment) (n : Nat) (p : Placement) : s.Alike (s.place g n p) := by
  unfold Part.place
  split
  · cases p
    · exact .refl s
    · exact s.alike_updateEngine g _
    · exact s.alike_updateEngine g _
  · exact .refl s

theorem Part.Alike.record (h : s.Alike t) (n : Nat) : t.record n = s.record n := Part.record_congr h.slots n

theorem Part.Alike.station (h : s.Alike t) (g : Segment) (k : Nat) : t.station g k = s.station g k := by
  simp [Part.station, h.stations]

theorem Part.Alike.withRecord (h : s.Alike t) (n : Nat) (r : Record) : (s.withRecord n r).Alike (t.withRecord n r) :=
  ⟨by simp [h.slots], fun p => by simpa using h.ports p, fun g => by simpa using h.stations g, h.bus⟩

theorem Part.Alike.freeSlot (h : s.Alike t) (n : Nat) : (s.freeSlot n).Alike (t.freeSlot n) :=
  ⟨by simp [h.slots], fun p => by simpa using h.ports p, fun g => by simpa using h.stations g, h.bus⟩

theorem Part.Alike.updatePort (h : s.Alike t) (p : Port) (f : PortUnit → PortUnit) :
    (s.updatePort p f).Alike (t.updatePort p f) := by
  refine ⟨by simp [h.slots], fun q => ?_, fun g => by simpa using h.stations g, by simpa [Part.SameBus] using h.bus⟩
  by_cases hq : q = p
  · subst hq
    rw [Part.updatePort_port, Part.updatePort_port, h.ports]
  · rw [Part.updatePort_port_ne _ _ _ _ hq, Part.updatePort_port_ne _ _ _ _ hq, h.ports]

theorem Part.Alike.setFlags (h : s.Alike t) (g : Segment) : (s.setFlags g).Alike (t.setFlags g) :=
  ⟨h.slots, fun p => by simp [h.ports], fun k => by simpa using h.stations k, h.bus⟩

theorem Part.Alike.put (h : s.Alike t) (n : Nat) (r : Record) (l : List Reason) : (s.put n r l).Alike (t.put n r l) := by
  unfold Part.put
  dsimp only
  split
  · exact (h.withRecord n _).updatePort _ _
  · exact h.withRecord n _

theorem Part.Alike.withStation (h : s.Alike t) (g : Segment) (k : Nat) (e : Station) :
    (s.withStation g k e).Alike (t.withStation g k e) := by
  refine ⟨by simp [h.slots], fun p => by simp [h.ports], fun j => ?_,
    ((s.withStation_sameBus g k e).symm.trans h.bus).trans (t.withStation_sameBus g k e)⟩
  unfold Part.withStation
  split
  · exact h.stations j
  · by_cases hj : j = g
    · subst hj
      simp [h.stations]
    · rw [Part.withSeg_seg_ne _ _ _ _ hj, Part.withSeg_seg_ne _ _ _ _ hj, h.stations]

theorem Part.Alike.forgetUnused (h : s.Alike t) (g : Segment) (k : Nat) :
    (s.forgetUnused g k).Alike (t.forgetUnused g k) := by
  have count : t.refCount g k = s.refCount g k := by simp [Part.refCount, h.slots]
  unfold Part.forgetUnused
  rw [count, h.station]
  split
  · split
    · split
      · exact (h.withStation g k _).setFlags g
      · exact h.withStation g k _
      · exact h
      · exact h
    · exact h
  · exact h

theorem Part.Alike.release (h : s.Alike t) (n : Nat) : (s.release n).Alike (t.release n) := by
  unfold Part.release
  rw [h.record]
  split
  · exact h
  · next r _ =>
    have out : (s.dequeue r.segment n).Alike (t.dequeue r.segment n) :=
      ((s.alike_updateEngine _ _).symm.trans h).trans (t.alike_updateEngine _ _)
    exact ((out.updatePort _ _).freeSlot n).forgetUnused _ _

/-! ### An outcome taken in the teardown, and one taken before it (R168) -/

section Before
variable {n : Nat} {r : Record} (o : ExchangeOutcome) (present : Bool)

/-- R50, R168: a RETIRING record ends in a teardown as it does in RUNNING or HELD, but for the Due Queue. -/
theorem Part.Alike.retiringOutcome (h : s.Alike t) (retiring : r.state = .retiring)
    (queues : (s.control r.segment).state.queues = true) :
    (s.retiringOutcome n r o present false).Alike (t.retiringOutcome n r o present true) := by
  unfold Part.retiringOutcome
  split
  · exact h.release n
  · split
    · split <;> exact h.put _ _ _
    · split
      · cases present
        · exact h.put _ _ _
        · have owing : { r with state := .retiring, guardPhase := .cancel } = { r with guardPhase := .cancel } := by
            rw [← retiring]
          simp only [queues, Bool.and_self, Bool.and_false, Bool.false_eq_true, if_true, if_false]
          unfold Part.oweCancel
          rw [owing]
          exact (Part.alike_updateEngine _ _ _).symm.trans (h.withRecord n _)
      · exact h.put _ _ _

/-- R102, R168: an outcome ends in a teardown as it does in RUNNING or HELD, but for the Due Queue. -/
theorem Part.Alike.outcomeOn (h : s.Alike t) (queues : (s.control r.segment).state.queues = true) :
    (s.outcomeOn n r o present false).Alike (t.outcomeOn n r o present true) := by
  have placed {x y : Part} (k : x.Alike y) (g : Segment) (m : Nat) (p : Placement) :
      (x.place g m p).Alike (y.place g m p) :=
    ((x.alike_place g m p).symm.trans k).trans (y.alike_place g m p)
  unfold Part.outcomeOn
  dsimp only
  split
  case h_1 retiring => exact h.retiringOutcome o present retiring queues
  case h_2 => exact h
  case h_3 =>
    split
    · exact h
    · exact h.put _ _ _
  case h_4 | h_5 | h_6 =>
    split
    · exact h
    · split
      · exact h.put _ _ _
      · exact placed (h.put _ _ _) _ _ _

end Before

/-- R168: an outcome of a segment's exchange ends in a teardown as it would have ended with the segment RUNNING. -/
theorem Part.takeOutcome_alike (s : Part) (g : Segment) (o : ExchangeOutcome)
    (here : ∀ n r, o.exchange.slot = some n → s.record n = some r → r.segment = g) :
    ((s.updateControl g fun c => { c with state := .running }).takeOutcome o false).Alike (s.takeOutcome o true) := by
  have h := (s.alike_updateControl g fun c => { c with state := .running }).symm
  unfold Part.takeOutcome
  split
  · exact h
  · next n slot =>
    rw [Part.updateControl_record]
    split
    · exact h
    · next r hr =>
      obtain rfl := here n r slot hr
      have present : (s.updateControl r.segment fun c => { c with state := .running }).present r.segment r.station =
          s.present r.segment r.station := by
        simp only [Part.present, Part.stationState, h.station]
      rw [present]
      exact h.outcomeOn o _ (by simp [SegmentState.queues])

end Alike

/-! ### The lists while outcomes are taken (R174, R175) -/

/-- R174, R175: since `s` slots have joined their owners' lists, and have left a list with their record alone. -/
structure Part.Relists (s t : Part) : Prop where
  notices : s.Notices t
  leave : ∀ p n, n ∈ (s.port p).attention → n ∉ (t.port p).attention → t.record n = none

section Relists
variable {s t : Part} {n : Nat} {q r : Record}

theorem Part.Relists.refl (s : Part) : s.Relists s := ⟨.refl s, fun _ _ h k => absurd h k⟩

theorem Part.Relists.congr {u : Part} (h : s.Relists t) (records : ∀ n, u.record n = t.record n)
    (lists : ∀ p, (u.port p).attention = (t.port p).attention) : s.Relists u :=
  ⟨h.notices.congr records lists, fun p n there gone => (records n).trans (h.leave p n there (lists p ▸ gone))⟩

/-- A record is put back with the owner that it had. -/
theorem Part.Relists.withRecord (h : s.Relists t) (hq : t.record n = some q) (owner : r.owner = q.owner) :
    s.Relists (t.withRecord n r) where
  notices := fun p m there new => by
    rw [Part.withRecord_port] at there
    obtain ⟨x, hx, hp⟩ := h.notices p m there new
    by_cases hm : m = n
    · subst hm
      rw [hq, Option.some_inj] at hx
      exact ⟨r, t.withRecord_record m r (Part.record_lt hq), owner.trans (hx ▸ hp)⟩
    · exact ⟨x, (t.withRecord_record_ne n m r hm).trans hx, hp⟩
  leave := fun p m there gone => by
    rw [Part.withRecord_port] at gone
    have free := h.leave p m there gone
    have hm : m ≠ n := fun e => by rw [e, hq] at free; cases free
    rw [t.withRecord_record_ne n m r hm]
    exact free

theorem Part.Relists.put (h : s.Relists t) (hq : t.record n = some q) (owner : r.owner = q.owner) (l : List Reason) :
    s.Relists (t.put n r l) := by
  have same : (r.withReasons l).owner = r.owner := Record.owner_of_fixed (r.withReasons_fixed l)
  have h' := h.withRecord (r := r.withReasons l) hq (same.trans owner)
  have hr : (t.withRecord n (r.withReasons l)).record n = some (r.withReasons l) :=
    t.withRecord_record n _ (Part.record_lt hq)
  have records (m : Nat) : (t.put n r l).record m = (t.withRecord n (r.withReasons l)).record m := by
    unfold Part.put
    dsimp only
    split
    · exact Part.updatePort_record ..
    · rfl
  have lists (p : Port) (m : Nat) : m ∈ ((t.put n r l).port p).attention ↔
      m ∈ ((t.withRecord n (r.withReasons l)).port p).attention ∨ (r.notifies l = true ∧ p = r.owner) ∧ m = n := by
    rw [Part.put_port, Part.withRecord_port]
    split
    · next raised => simp [mem_joinList, raised]
    · next silent => simp [silent]
  refine ⟨fun p m there new => ?_, fun p m there gone => ?_⟩
  · rw [records]
    obtain there | ⟨⟨-, rfl⟩, rfl⟩ := (lists p m).mp there
    · exact h'.notices p m there new
    · exact ⟨_, hr, same⟩
  · rw [records]
    exact h'.leave p m there fun stays => gone ((lists p m).mpr (Or.inl stays))

/-- R19: a slot leaves its owner's list as it is released. -/
theorem Part.Relists.release (h : s.Relists t) (n : Nat) : s.Relists (t.release n) := by
  rcases hr : t.record n with _ | r
  · simpa [Part.release, hr] using h
  obtain ⟨-, lists, -⟩ := releaseFreesSlot t n r hr
  have mem (p : Port) (m : Nat) : m ∈ ((t.release n).port p).attention ↔
      m ∈ (t.port p).attention ∧ ¬(p = r.owner ∧ m = n) := by
    rw [lists]
    split
    · next owned => simp [owned]
    · next other => simp [other]
  refine ⟨fun p m there new => ?_, fun p m there gone => ?_⟩
  · obtain ⟨there, stays⟩ := (mem p m).mp there
    obtain ⟨x, hx, hp⟩ := h.notices p m there new
    have hm : m ≠ n := by
      rintro rfl
      rw [hr, Option.some_inj] at hx
      exact stays ⟨(hx ▸ hp).symm, rfl⟩
    exact ⟨x, (t.release_record n m).trans ((if_neg hm).trans hx), hp⟩
  · rw [Part.release_record]
    split
    · rfl
    · next hm =>
      exact h.leave p m there fun stays => gone ((mem p m).mpr ⟨stays, fun ⟨_, e⟩ => hm e⟩)

theorem Part.Relists.place (h : s.Relists t) (g : Segment) (m : Nat) (p : Placement) : s.Relists (t.place g m p) :=
  h.congr (t.alike_place g m p).record fun q => congrArg _ ((t.alike_place g m p).ports q)

/-- R102: an outcome is taken. -/
theorem Part.Relists.takeOutcome (h : s.Relists t) (o : ExchangeOutcome) (torn : Bool) :
    s.Relists (t.takeOutcome o torn) := by
  unfold Part.takeOutcome
  split
  · exact h
  · next n _ =>
    split
    · exact h
    · next r hr =>
      have put {x : Record} (fixed : x.fixed = r.fixed) (l : List Reason) : s.Relists (t.put n x l) :=
        h.put hr (Record.owner_of_fixed fixed) l
      unfold Part.outcomeOn
      dsimp only
      split
      case h_1 =>
        unfold Part.retiringOutcome
        split
        · exact h.release n
        · split
          · split <;> exact put (by rfl) _
          · split
            · split
              · exact h.withRecord hr rfl
              · split
                · exact (h.withRecord (r := { r with state := .retiring, guardPhase := .cancel }) hr rfl).congr
                    (fun m => by simp [Part.oweCancel, Part.placeOwedCancel])
                    (fun p => by simp [Part.oweCancel, Part.placeOwedCancel])
                · exact put (by rfl) _
            · exact put (by rfl) _
      case h_2 => exact h
      case h_3 =>
        split
        · exact h
        · exact put (r.aside_fixed ..) _
      case h_4 | h_5 | h_6 =>
        split
        · exact h
        · split
          · exact put (r.aside_fixed ..) _
          · exact (put (r.served_fixed ..) _).place _ _ _

end Relists

end Sys2Proof.Machine
end

section
/-! SUPPORT. The records and the stations at the Table Controller's part of a teardown (R139, R142, R168, R170). -/

namespace Sys2Proof.Machine

/-! ### What a record becomes (R139, R170) -/

/-- R121: a guarded write is open. -/
abbrev Record.writeOpen (r : Record) : Prop := r.kind = .guarded ∧ r.guardPhase ≠ .closed

/-- R170: the reasons that a teardown raises on a record. -/
def Record.tornReasons (r : Record) : List Reason :=
  if r.state.served = true ∧ r.writeOpen then [.halted]
  else if r.state = .live then [.stale]
  else if r.state = .retiring then [.retired]
  else []

/-- R139, R170: a record whose STORE was abandoned is dirty, but for a RETIRED one (log 34). -/
def Record.abandoned (r : Record) (store : Prop) [Decidable store] : Record :=
  { r with dirty := r.dirty || decide (r.kind = .output ∧ r.state ≠ .retired ∧ store) }

/-- R170: what a teardown makes of a record by its state. -/
def Record.torn (r r' : Record) : Record :=
  if r.state.served = true ∧ r.writeOpen then { r' with state := .halted, condition := .segmentDown }
  else if r.state = .live then { r' with state := .stale, condition := .segmentDown }
  else if r.state.served = true then { r' with condition := .segmentDown }
  else if r.state = .retiring then { r' with state := .retired, condition := .cancelUnconfirmed }
  else r'

theorem abandonedStore_iff (x : Option Exchange) (n : Nat) :
    abandonedStore x n = true ↔ ∃ y, x = some y ∧ y.kind = .store ∧ y.slot = some n := by
  simp [abandonedStore, Option.any_eq_true]

theorem Record.abandoned_eq (r : Record) {store : Nat → Bool} {n : Nat} {P : Prop} [Decidable P]
    (same : store n = true ↔ P) (live : r.state ≠ .retired) :
    (if r.kind = .output && store n then { r with dirty := true } else r) = r.abandoned P := by
  by_cases hit : r.kind = .output ∧ P
  · simp [Record.abandoned, hit.1, same.mpr hit.2, hit.2, live]
  · have miss : ¬(r.kind = .output && store n) = true := by simpa [same] using hit
    have kept : ¬(r.kind = .output ∧ r.state ≠ .retired ∧ P) := fun ⟨kind, _, p⟩ => hit ⟨kind, p⟩
    rw [if_neg miss]
    simp [Record.abandoned, kept]

/-- R139, R170: what a teardown makes of a record that it does not free. -/
theorem tornVerdict_eq {store : Nat → Bool} {n : Nat} {P : Prop} [Decidable P] (same : store n = true ↔ P) {r : Record}
    (loud : ¬(r.state = .retiring ∧ r.silentRetire = true)) :
    tornVerdict store n r = (r.torn (r.abandoned P), r.tornReasons) := by
  by_cases retired : r.state = .retired
  · have kept : r.abandoned P = r := by
      have same : (r.dirty || decide (r.kind = .output ∧ r.state ≠ .retired ∧ P)) = r.dirty := by simp [retired]
      rw [Record.abandoned, same]
    simp [tornVerdict, Record.torn, Record.tornReasons, retired, kept, RecordState.served]
  · have stored := r.abandoned_eq same retired
    unfold tornVerdict
    simp only [stored]
    cases hs : r.state
    case retired => exact absurd hs retired
    case halted => simp [Record.torn, Record.tornReasons, hs, RecordState.served]
    case retiring =>
      have loud : r.silentRetire = false := by simpa [hs] using loud
      simp [Record.torn, Record.tornReasons, hs, RecordState.served, loud]
    all_goals
      by_cases opened : r.writeOpen <;> simp [Record.torn, Record.tornReasons, hs, RecordState.served, opened]

/-- R52, R170: a record with silent retire keeps its silence, and no reason is raised on it. -/
theorem tornVerdict_silentRetire (store : Nat → Bool) (n : Nat) (r : Record) :
    (tornVerdict store n r).1.silentRetire = r.silentRetire := by
  by_cases loud : r.state = .retiring ∧ r.silentRetire = true
  · simp only [tornVerdict, loud.1, loud.2, if_true]
    split <;> simp [loud.2]
  · rw [tornVerdict_eq (P := store n = true) Iff.rfl loud]
    unfold Record.torn Record.abandoned
    split_ifs <;> rfl

/-! ### Slots of one segment released, one after the other (R19, R142) -/

/-- What holds of no slot, and of one more slot after each step, holds after a step for each of some slots. -/
theorem foldl_each {s : Part} {step : Part → Nat → Part} {meets : Nat → Prop} {R : Part → List Nat → Prop} (nil : R s [])
    (one : ∀ {t : Part} {gone : List Nat} {n : Nat}, R t gone → n ∉ gone → meets n → R (step t n) (gone ++ [n]))
    {slots : List Nat} (nodup : slots.Nodup) (all : ∀ n ∈ slots, meets n) : R (slots.foldl step s) slots := by
  induction slots using List.reverseRecOn with
  | nil => exact nil
  | append_singleton slots n ih =>
    obtain ⟨nodup, -, apart⟩ := List.nodup_append.mp nodup
    rw [List.foldl_append]
    exact one (ih nodup fun m hm => all m (by simp [hm])) (fun hn => apart n hn n (by simp) rfl) (all n (by simp))

/-- R19, R142: slots of a segment's records are released, and the stations that lose their last record forget. -/
structure Part.Clears (s t : Part) (g : Segment) (gone : List Nat) : Prop where
  records : ∀ n, t.record n = if n ∈ gone then none else s.record n
  lists : ∀ p n, n ∈ (t.port p).attention ↔
    n ∈ (s.port p).attention ∧ ¬(n ∈ gone ∧ ∃ r, s.record n = some r ∧ r.owner = p)
  controls : ∀ h, t.control h = s.control h
  engine : t.engine g = (s.engine g).remove fun n => decide (n ∈ gone)
  others : s.SameOther t g
  forgets : ∀ k, s.Loses t gone g k → t.station g k = (s.station g k).map Station.forgotten
  keeps : ∀ k, ¬s.Loses t gone g k → t.station g k = s.station g k
  bus : s.SameBus t
  flagged : s.PortsFlagged t fun h => h = g ∧ ∃ k e, s.Loses t gone g k ∧ s.station g k = some e ∧ e.state = .silent

theorem Part.Clears.refl (s : Part) (g : Segment) : s.Clears s g [] where
  records := fun n => by simp
  lists := fun p n => by simp
  controls := fun _ => rfl
  engine := by simp [Engine.remove_nothing]
  others := fun _ _ => rfl
  forgets := fun k h => by simp [Part.Loses] at h
  keeps := fun _ _ => rfl
  bus := .refl s
  flagged := (Part.PortsFlagged.refl s).congr fun g => by simp [Part.Loses]

/-- R19: a release touches the segment of its record alone. -/
theorem Part.release_sameOther {s : Part} {n : Nat} {r : Record} (hr : s.record n = some r) :
    s.SameOther (s.release n) r.segment := by
  intro h hg
  rw [Part.release_eq hr]
  have vacated : (s.vacated n r).seg h = s.seg h := by
    simp [Part.vacated, Part.dequeue, Part.updateEngine_seg_ne _ _ _ _ hg]
  have entered (e : Station) : ((s.vacated n r).withStation r.segment r.station e).seg h = s.seg h :=
    (Part.withStation_seg_ne _ _ _ _ _ hg).trans vacated
  exact Part.forgetUnused_keeps (P := fun t => t.seg h = s.seg h) _ _ entered
    (fun e => (Part.setFlags_seg ..).trans (entered e)) vacated

/-- R19, R142: one more record of the segment is released. -/
theorem Part.Clears.release {s t : Part} {g : Segment} {gone : List Nat} (h : s.Clears t g gone) {n : Nat}
    (new : n ∉ gone) (here : ∃ r, s.record n = some r ∧ r.segment = g) : s.Clears (t.release n) g (gone ++ [n]) := by
  obtain ⟨r, hr, rfl⟩ := here
  have ht : t.record n = some r := by rw [h.records, if_neg new, hr]
  obtain ⟨-, lists, segments, -, -, bus, flags⟩ := releaseFreesSlot t n r ht
  have loses := Part.loses_release new h.records hr
  have kept : t.station r.segment r.station = s.station r.segment r.station :=
    h.keeps _ (Part.not_loses_of_record ht)
  refine ⟨fun m => ?_, fun p m => ?_, fun k => (segments k).1.trans (h.controls k), ?_, fun k hk => ?_, fun k lost => ?_,
    fun k keeps => ?_, h.bus.trans bus, ?_⟩
  · rw [Part.release_record, h.records]
    by_cases hm : m = n <;> simp [hm]
  · rw [lists]
    by_cases hm : m = n
    · subst hm
      by_cases owned : p = r.owner
      · simp [owned, hr]
      · simp [owned, h.lists, hr, new, Ne.symm owned]
    · have mem : m ∈ (if p = r.owner then (t.port p).attention.filter (· ≠ n) else (t.port p).attention) ↔
          m ∈ (t.port p).attention := by split <;> simp [hm]
      rw [mem, h.lists]
      simp [hm]
  · rw [(segments _).2, if_pos rfl, h.engine, Engine.remove_remove]
    refine congrArg _ (funext fun m => ?_)
    simp [beq_eq_decide]
  · exact (Part.release_sameOther ht k hk).trans (h.others k hk)
  · rw [Part.release_station ht]
    rcases (loses r.segment k).mp lost with before | last
    · have route : ¬(r.segment = r.segment ∧ k = r.station ∧ (t.release n).refCount r.segment k = 0) := by
        rintro ⟨-, rfl, -⟩
        exact Part.not_loses_of_record ht before
      rw [if_neg route, h.forgets k before]
    · obtain ⟨-, rfl, -⟩ := id last
      rw [if_pos last, kept]
  · rw [Part.release_station ht, if_neg fun last => keeps ((loses _ k).mpr (Or.inr last)),
      h.keeps k fun before => keeps ((loses _ k).mpr (Or.inl before))]
  · refine (h.flagged.trans flags).congr fun k => ?_
    constructor
    · rintro (⟨rfl, k, e, before, he, silent⟩ | ⟨rfl, unused, e, he, silent⟩)
      · exact ⟨rfl, k, e, (loses _ k).mpr (Or.inl before), he, silent⟩
      · exact ⟨rfl, r.station, e, (loses _ _).mpr (Or.inr ⟨rfl, rfl, unused⟩), kept ▸ he, silent⟩
    · rintro ⟨rfl, k, e, lost, he, silent⟩
      rcases (loses _ k).mp lost with before | ⟨-, rfl, unused⟩
      · exact Or.inl ⟨rfl, k, e, before, he, silent⟩
      · exact Or.inr ⟨rfl, unused, e, kept.trans he, silent⟩

/-- R19, R142: the records of a segment in some slots are released, one after the other. -/
theorem Part.clears_foldl {s : Part} {g : Segment} {slots : List Nat} (nodup : slots.Nodup)
    (here : ∀ n ∈ slots, ∃ r, s.record n = some r ∧ r.segment = g) : s.Clears (slots.foldl Part.release s) g slots :=
  foldl_each (R := fun t gone => s.Clears t g gone) (.refl s g) (fun h new here => h.release new here) nodup here

/-! ### The records of the segment at the teardown (R170) -/

/-- R170: a record that the teardown frees. -/
def Record.FreedIn (r : Record) (g : Segment) : Prop := r.segment = g ∧ r.state = .retiring ∧ r.silentRetire = true

/-- R170: the slots that the teardown frees. -/
def Part.tornFreed (s : Part) (g : Segment) : List Nat :=
  s.slotsWhere fun _ r => r.segment == g && r.state == .retiring && r.silentRetire

/-- R170: the part with the segment's records torn and its Due Queue empty, before slots are freed. -/
def Part.tornRecords (s : Part) (g : Segment) (x : Option Exchange) : Part :=
  (s.forRecords (fun _ r => r.segment == g) (tornVerdict (abandonedStore x))).updateEngine g fun e =>
    { e with active := [], held := [] }

section Torn
variable (s : Part) (g : Segment) (x : Option Exchange)

theorem Part.tearRecords_eq : s.tearRecords g x = (s.tornFreed g).foldl Part.release (s.tornRecords g x) := rfl

theorem Part.mem_tornFreed (n : Nat) : n ∈ s.tornFreed g ↔ ∃ r, s.record n = some r ∧ r.FreedIn g := by
  simp [Part.tornFreed, Part.mem_slotsWhere, Record.FreedIn, and_assoc]

theorem Part.tornRecords_record (n : Nat) : (s.tornRecords g x).record n = (s.record n).map fun r =>
    if r.segment = g then
      (tornVerdict (abandonedStore x) n r).1.withReasons (tornVerdict (abandonedStore x) n r).2 else r := by
  simp only [Part.tornRecords, Part.updateEngine_record, Part.forRecords_record, beq_iff_eq]

/-- R170: the teardown keeps the fixed fields of the records that it does not free. -/
theorem Part.tornRecords_fixed {n : Nat} {r : Record} (hr : s.record n = some r) :
    ∃ r', (s.tornRecords g x).record n = some r' ∧ r'.fixed = r.fixed := by
  refine ⟨_, by rw [Part.tornRecords_record, hr, Option.map_some], ?_⟩
  split
  · exact (Record.withReasons_fixed _ _).trans (tornVerdict_fixed _ n r)
  · rfl

/-- R170: no slot is taken, so what a torn slot holds was there before. -/
theorem Part.of_tornRecords {n : Nat} {r' : Record} (hr : (s.tornRecords g x).record n = some r') :
    ∃ r, s.record n = some r ∧ r'.fixed = r.fixed := by
  have was := hr
  rw [Part.tornRecords_record] at was
  obtain ⟨r, h, -⟩ := Option.map_eq_some_iff.mp was
  obtain ⟨q, hq, fixed⟩ := s.tornRecords_fixed g x h
  rw [hr, Option.some_inj] at hq
  exact ⟨r, h, hq ▸ fixed⟩

theorem Part.tearRecords_clears : (s.tornRecords g x).Clears (s.tearRecords g x) g (s.tornFreed g) :=
  s.tearRecords_eq g x ▸ Part.clears_foldl (s.nodup_slotsWhere _) fun n hn => by
    obtain ⟨r, hr, segment, -⟩ := (s.mem_tornFreed g n).mp hn
    obtain ⟨r', hr', fixed⟩ := s.tornRecords_fixed g x hr
    exact ⟨r', hr', (Record.segment_of_fixed fixed).trans segment⟩

/-- R142: the stations that lose their last record with the slots that the teardown frees. -/
theorem Part.tearRecords_loses {t : Part} (k : Nat) : (s.tornRecords g x).Loses t (s.tornFreed g) g k ↔
    t.refCount g k = 0 ∧ ∃ n r, s.record n = some r ∧ r.FreedIn g ∧ r.station = k := by
  have route {q r : Record} (fixed : r.fixed = q.fixed) : r.station = q.station := by
    obtain ⟨-, -, -, -, station, -, -⟩ := (Record.fixed_eq_iff r q).mp fixed
    exact station
  refine and_congr_right fun _ => ⟨?_, ?_⟩
  · rintro ⟨n, hn, r', hr', -, station⟩
    obtain ⟨r, hr, freed⟩ := (s.mem_tornFreed g n).mp hn
    obtain ⟨q, hq, fixed⟩ := s.of_tornRecords g x hr'
    rw [hr, Option.some_inj] at hq
    subst hq
    exact ⟨n, r, hr, freed, (route fixed).symm.trans station⟩
  · rintro ⟨n, r, hr, freed, station⟩
    obtain ⟨r', hr', fixed⟩ := s.tornRecords_fixed g x hr
    exact ⟨n, (s.mem_tornFreed g n).mpr ⟨r, hr, freed⟩, r', hr', (Record.segment_of_fixed fixed).trans freed.1,
      (route fixed).trans station⟩

/-- R175: what the torn records put on the lists. -/
theorem Part.mem_tornRecords_attention (p : Port) (n : Nat) : n ∈ ((s.tornRecords g x).port p).attention ↔
    n ∈ (s.port p).attention ∨
      ∃ r, s.record n = some r ∧ r.owner = p ∧ r.segment = g ∧ r.silentRetire = false ∧ r.tornReasons ≠ [] := by
  obtain ⟨new, lists, -, mem⟩ := s.forRecords_listsGain (fun _ r => r.segment == g) (tornVerdict (abandonedStore x))
    (fun _ r => r.segment = g ∧ r.tornReasons ≠ [])
    (fun n r => Record.owner_of_fixed (tornVerdict_fixed _ n r)) (fun n r => tornVerdict_silentRetire _ n r)
    (fun n r _ loud => by
      rw [tornVerdict_eq (P := abandonedStore x n = true) Iff.rfl (by simp [loud]), beq_iff_eq]) p
  rw [Part.tornRecords, Part.updateEngine_port, lists, List.mem_append, mem]
  by_cases there : n ∈ (s.port p).attention
  · simp [there]
  · simp only [there, not_false_eq_true, true_and, false_or]
    refine exists_congr fun r => and_congr_right fun _ => and_congr_right fun _ => ?_
    tauto

/-- R19, R175: the lists after the teardown of the records: a freed slot leaves its owner's list. -/
theorem Part.mem_tearRecords_attention (p : Port) (n : Nat) : n ∈ ((s.tearRecords g x).port p).attention ↔
    (n ∈ (s.port p).attention ∧ ∀ r, s.record n = some r → r.FreedIn g → r.owner ≠ p) ∨
      ∃ r, s.record n = some r ∧ r.owner = p ∧ r.segment = g ∧ r.silentRetire = false ∧ r.tornReasons ≠ [] := by
  have leaves : (n ∈ s.tornFreed g ∧ ∃ r, (s.tornRecords g x).record n = some r ∧ r.owner = p) ↔
      ∃ r, s.record n = some r ∧ r.FreedIn g ∧ r.owner = p := by
    rw [Part.mem_tornFreed]
    constructor
    · rintro ⟨⟨r, hr, freed⟩, r', hr', owner⟩
      obtain ⟨q, hq, fixed⟩ := s.of_tornRecords g x hr'
      rw [hr, Option.some_inj] at hq
      subst hq
      exact ⟨r, hr, freed, (Record.owner_of_fixed fixed).symm.trans owner⟩
    · rintro ⟨r, hr, freed, owner⟩
      obtain ⟨r', hr', fixed⟩ := s.tornRecords_fixed g x hr
      exact ⟨⟨r, hr, freed⟩, r', hr', (Record.owner_of_fixed fixed).trans owner⟩
  rw [(s.tearRecords_clears g x).lists, leaves, Part.mem_tornRecords_attention]
  have loud : (∃ r, s.record n = some r ∧ r.owner = p ∧ r.segment = g ∧ r.silentRetire = false ∧ r.tornReasons ≠ []) →
      ¬∃ r, s.record n = some r ∧ r.FreedIn g ∧ r.owner = p := by
    rintro ⟨r, hr, -, -, loud, -⟩ ⟨q, hq, ⟨-, -, silent⟩, -⟩
    rw [hr, Option.some_inj] at hq
    rw [← hq, loud] at silent
    cases silent
  have stays : (¬∃ r, s.record n = some r ∧ r.FreedIn g ∧ r.owner = p) ↔
      ∀ r, s.record n = some r → r.FreedIn g → r.owner ≠ p := by
    simp only [not_exists, not_and, ne_eq]
  rw [← stays, or_and_right, and_iff_left_of_imp loud]

theorem Part.tearRecords_record (n : Nat) : (s.tearRecords g x).record n =
    if n ∈ s.tornFreed g then none else (s.tornRecords g x).record n :=
  (s.tearRecords_clears g x).records n

theorem Part.tornRecords_station (h : Segment) (k : Nat) : (s.tornRecords g x).station h k = s.station h k := by
  simp [Part.tornRecords, Part.station]

theorem Part.tearRecords_engine : (s.tearRecords g x).engine g = { s.engine g with active := [], held := [] } := by
  rw [(s.tearRecords_clears g x).engine, Part.tornRecords, Part.updateEngine_engine, Part.forRecords_engine]
  rfl

theorem Part.tearRecords_control (h : Segment) : (s.tearRecords g x).control h = s.control h := by
  rw [(s.tearRecords_clears g x).controls, Part.tornRecords, Part.updateEngine_control, Part.forRecords_control]

theorem Part.tearRecords_sameOther : s.SameOther (s.tearRecords g x) g := by
  intro h hg
  rw [(s.tearRecords_clears g x).others h hg, Part.tornRecords, Part.updateEngine_seg_ne _ _ _ _ hg, Part.forRecords_seg]

theorem Part.tearRecords_sameBus : s.SameBus (s.tearRecords g x) :=
  ((Part.forRecords_sameBus ..).trans (Part.updateEngine_sameBus ..)).trans (s.tearRecords_clears g x).bus

/-- R150: the flags are set where a SILENT station loses its last record. -/
theorem Part.tearRecords_flagged : s.PortsFlagged (s.tearRecords g x) fun h => h = g ∧ ∃ k e,
    (s.tornRecords g x).Loses (s.tearRecords g x) (s.tornFreed g) g k ∧ s.station g k = some e ∧ e.state = .silent := by
  have torn : (s.forRecords (fun _ r => r.segment == g) (tornVerdict (abandonedStore x))).PortsFlagged
      (s.tornRecords g x) fun _ => False := .of_ports fun p => Part.updateEngine_port ..
  refine (((s.forRecords_flagged _ _).trans torn).trans (s.tearRecords_clears g x).flagged).congr fun h => ?_
  simp only [Part.tornRecords_station, false_or]

/-- R139, R170: a record of the segment that is not freed. -/
theorem Part.tearRecords_torn {n : Nat} {r : Record} {P : Prop} [Decidable P] (hr : s.record n = some r)
    (segment : r.segment = g) (kept : ¬r.FreedIn g) (store : abandonedStore x n = true ↔ P) :
    (s.tearRecords g x).record n = some ((r.torn (r.abandoned P)).withReasons r.tornReasons) := by
  have stays : n ∉ s.tornFreed g := by
    rw [Part.mem_tornFreed]
    rintro ⟨q, hq, freed⟩
    rw [hr, Option.some_inj] at hq
    exact kept (hq ▸ freed)
  have loud : ¬(r.state = .retiring ∧ r.silentRetire = true) := fun freed => kept ⟨segment, freed⟩
  rw [Part.tearRecords_record, if_neg stays, Part.tornRecords_record, hr, Option.map_some, if_pos segment,
    tornVerdict_eq store loud]

/-- R170: a slot that holds no record of the segment. -/
theorem Part.tearRecords_away {n : Nat} (away : ∀ r, s.record n = some r → r.segment ≠ g) :
    (s.tearRecords g x).record n = s.record n := by
  have stays : n ∉ s.tornFreed g := by
    rw [Part.mem_tornFreed]
    rintro ⟨q, hq, segment, -⟩
    exact away q hq segment
  rw [Part.tearRecords_record, if_neg stays, Part.tornRecords_record]
  rcases hr : s.record n with _ | r
  · rfl
  · rw [Option.map_some, if_neg (away r hr)]

end Torn

/-! ### The part taken (R168, R170, R175) -/

/-- R168: the outcomes that wait are taken, and slots leave a list with their record alone. -/
theorem Part.relists_recordBacklog (s : Part) (g : Segment) : s.Relists (s.recordBacklog g) :=
  List.foldlRecOn (motive := s.Relists) _ _ ((Part.Relists.refl s).congr (by simp) (by simp))
    fun _ h o _ => h.takeOutcome o true

/-- R175: the lists that the teardown leaves: the slots that stood there and stay, then the new ones in ascending order. -/
theorem Part.Relists.ordered {s u v : Part} (h : s.Relists u) (p : Port) {kept raised : Nat → Prop}
    (lists : ∀ n, n ∈ (v.port p).attention ↔ kept n ∨ raised n) (stays : ∀ n, kept n → n ∈ (u.port p).attention)
    (loud : ∀ n, raised n → n ∈ (u.port p).attention → kept n)
    (record : ∀ n, kept n ∨ raised n → (∃ r, u.record n = some r ∧ r.owner = p) → ∃ r, v.record n = some r)
    (owned : ∀ n, raised n → ∃ r, u.record n = some r ∧ r.owner = p) :
    ∃ old new : List Nat, ((s.inSlotOrder v).port p).attention = old ++ new ∧
      (∃ stays : Nat → Bool, (∀ n, n ∈ (s.port p).attention → (stays n = true ↔ kept n)) ∧
        old = (s.port p).attention.filter stays) ∧
      new.Pairwise (· < ·) ∧ ∀ n, n ∈ new ↔ n ∉ (s.port p).attention ∧ (kept n ∨ raised n) := by
  have held (n : Nat) (there : n ∈ (v.port p).attention) (out : n ∉ (s.port p).attention) : ∃ r, v.record n = some r := by
    have cases := (lists n).mp there
    refine record n cases ?_
    obtain kept | raised := cases
    · exact h.notices p n (stays n kept) out
    · exact owned n raised
  obtain ⟨new, order, sorted, mem⟩ := Part.inSlotOrder_gains s v p held
  refine ⟨_, new, order, ⟨(v.port p).attention.contains, fun n there => ?_, rfl⟩, sorted, fun n => ?_⟩
  · rw [List.contains_iff_mem, lists]
    refine ⟨fun cases => cases.elim id fun raised => ?_, Or.inl⟩
    by_contra lost
    obtain ⟨r, hr, -⟩ := owned n raised
    rw [h.leave p n there fun stands => lost (loud n raised stands)] at hr
    cases hr
  · rw [mem, lists, and_comm]

/-- R19, R175: the lists that the teardown of the records leaves. -/
theorem Part.Relists.tearRecords {s u : Part} (h : s.Relists u) (g : Segment) (x : Option Exchange) (p : Port) :
    let kept (n : Nat) : Prop := n ∈ (u.port p).attention ∧ ∀ r, u.record n = some r → r.FreedIn g → r.owner ≠ p
    ∃ old new : List Nat, ((s.inSlotOrder (u.tearRecords g x)).port p).attention = old ++ new ∧
      (∃ stays : Nat → Bool, (∀ n, n ∈ (s.port p).attention → (stays n = true ↔ kept n)) ∧
        old = (s.port p).attention.filter stays) ∧
      new.Pairwise (· < ·) ∧
      ∀ n, n ∈ new ↔ n ∉ (s.port p).attention ∧ (kept n ∨ ∃ r, u.record n = some r ∧ r.owner = p ∧
        r.segment = g ∧ r.silentRetire = false ∧ r.tornReasons ≠ []) := by
  intro kept
  have stays {n : Nat} {r : Record} (hr : u.record n = some r) (loud : ¬r.FreedIn g) :
      ∃ r, (u.tearRecords g x).record n = some r := by
    by_cases here : r.segment = g
    · exact ⟨_, u.tearRecords_torn g x hr here loud Iff.rfl⟩
    · refine ⟨r, (u.tearRecords_away g x fun q hq => ?_).trans hr⟩
      rw [hr, Option.some_inj] at hq
      exact hq ▸ here
  refine h.ordered p (u.mem_tearRecords_attention g x p) (fun n => And.left) ?_ ?_ ?_
  · rintro n ⟨r, hr, -, -, loud, -⟩ there
    refine ⟨there, fun q hq ⟨_, _, silent⟩ => ?_⟩
    rw [hr, Option.some_inj] at hq
    rw [← hq, loud] at silent
    cases silent
  · rintro n (⟨-, stands⟩ | ⟨r, hr, -, -, loud, -⟩) ⟨q, hq, owner⟩
    · exact stays hq fun freed => stands q hq freed owner
    · refine stays hr fun ⟨_, _, silent⟩ => ?_
      rw [loud] at silent
      cases silent
  · rintro n ⟨r, hr, owner, -⟩
    exact ⟨r, hr, owner⟩

/-- R142: what the teardown of the records makes of a station that lost its last record, and of one that did not. -/
theorem Part.tearRecords_entry (s : Part) (g : Segment) (x : Option Exchange) {k : Nat} {e : Station}
    (he : s.station g k = some e) {lost : Prop}
    (same : (s.tornRecords g x).Loses (s.tearRecords g x) (s.tornFreed g) g k ↔ lost) :
    (lost ∧ e.state = .silent → (s.tearRecords g x).station g k = some ⟨.absent, none, 0⟩) ∧
    (lost ∧ e.state = .absent → (s.tearRecords g x).station g k = some { e with identity := none }) ∧
    (¬lost ∨ e.state = .present ∨ e.state = .barred → (s.tearRecords g x).station g k = some e) := by
  have clears := s.tearRecords_clears g x
  have before : (s.tornRecords g x).station g k = some e := (s.tornRecords_station g x g k).trans he
  have forgets (h : lost) : (s.tearRecords g x).station g k = some e.forgotten := by
    rw [clears.forgets k (same.mpr h), before, Option.map_some]
  refine ⟨fun ⟨h, silent⟩ => ?_, fun ⟨h, absent⟩ => ?_, ?_⟩
  · simpa [Station.forgotten, silent] using forgets h
  · simpa [Station.forgotten, absent] using forgets h
  · by_cases h : lost
    · rintro (h' | present | barred)
      · exact absurd h h'
      · simpa [Station.forgotten, present] using forgets h
      · simpa [Station.forgotten, barred] using forgets h
    · exact fun _ => (clears.keeps k (mt same.mp h)).trans before

theorem Part.recordTeardown_eq {s handed : Part} {g : Segment} {x : Option Exchange} {left : List (Option Exchange)}
    (waits : (s.control g).recordTeardowns = x :: left)
    (hh : handed = s.updateControl g fun c => { c with recordTeardowns := left }) :
    s.recordTeardown g = handed.inSlotOrder ((handed.recordBacklog g).tearRecords g x) := by
  simp only [Part.recordTeardown, waits, hh]

/-- Settles O54: an outcome taken in the teardown against one taken before it, and the teardown of the records clause by
clause. -/
theorem recordTeardownActs : Obligations.RecordTeardownActs := by
  refine ⟨fun s g o here => ?_, ?_⟩
  · have same := s.takeOutcome_alike g o here
    have controls := ((Part.Acts.refl False (fun _ => False) s).takeOutcome False.elim true (o := o)).controls
    exact ⟨same.record, same.ports, fun h => ⟨same.stations h, controls h⟩, same.bus⟩
  intro g s x left awake waits waiting u
  obtain ⟨handed, hh⟩ : ∃ handed, handed = s.part.updateControl g fun c => { c with recordTeardowns := left } := ⟨_, rfl⟩
  have hu : u = handed.recordBacklog g := by
    simp only [u, waiting, hh, Part.recordBacklog, Part.updateControl_engine]
  have lists (p : Port) : (handed.port p).attention = (s.part.port p).attention := by rw [hh, Part.updateControl_port]
  have relists : handed.Relists u := hu ▸ handed.relists_recordBacklog g
  clear_value u
  intro freed lost opened raised
  have loses (k : Nat) : (u.tornRecords g x).Loses (u.tearRecords g x) (u.tornFreed g) g k ↔
      lost (handed.inSlotOrder (u.tearRecords g x)) k := by
    rw [Part.tearRecords_loses, ← Part.inSlotOrder_refCount handed]
    rfl
  refine ⟨handed.inSlotOrder (u.tearRecords g x), (s.claim_awake (·.recordTeardown g) awake).trans
    (congrArg (fun t => Host.Outcome.next (s.with t)) (hu ▸ Part.recordTeardown_eq waits hh)),
    fun n r hr here kept => ?_, fun n gone => ?_, fun n away => ?_, fun p => ?_, ?_, fun h => ?_, fun k e he => ?_,
    fun h hg => ?_, ?_, ?_⟩
  · exact u.tearRecords_torn g x hr here kept (abandonedStore_iff x n)
  · rw [Part.inSlotOrder_record, Part.tearRecords_record, if_pos ((u.mem_tornFreed g n).mpr gone)]
  · exact u.tearRecords_away g x away
  · rw [← lists]
    exact relists.tearRecords g x p
  · rw [Part.inSlotOrder_engine, Part.tearRecords_engine]
  · rw [Part.inSlotOrder_control, Part.tearRecords_control]
  · rw [Part.inSlotOrder_station]
    exact u.tearRecords_entry g x he (loses k)
  · rw [Part.inSlotOrder_seg, u.tearRecords_sameOther g x h hg]
  · exact (u.tearRecords_sameBus g x).trans (Part.inSlotOrder_sameBus ..)
  · refine ((u.tearRecords_flagged g x).trans (Part.inSlotOrder_flagged _ _)).congr fun h => ?_
    simp only [loses, or_false]

end Sys2Proof.Machine
end

section
/-! SUPPORT. What the Attention Lists rest on (R12, R174 to R176): a slot stands on a list once, on its owner's alone, and with a
reason pending. One lemma for each way in which a claim touches a list or a record. -/

namespace Sys2Proof.Machine

/-! ### Reasons -/

/-- R12: a set that holds a reason is not empty. -/
theorem ReasonSet.ne_empty_iff (s : ReasonSet) : s ≠ .empty ↔ ∃ x, s.has x = true := by
  constructor
  · intro h
    by_contra none
    simp only [not_exists, Bool.not_eq_true] at none
    cases s
    exact h (by simpa [ReasonSet.empty, ReasonSet.has] using
      ⟨none .arrived, none .fresh, none .stale, none .halted, none .changed, none .applied, none .retired, none .station⟩)
  · rintro ⟨x, hx⟩ rfl
    cases x <;> cases hx

/-- R2, R12: the record has the owner and the reason set that it had. -/
def Record.SameNotice (q r : Record) : Prop := r.owner = q.owner ∧ r.reasons = q.reasons

@[simp] theorem Record.withReasons_owner (r : Record) (l : List Reason) : (r.withReasons l).owner = r.owner :=
  Record.owner_of_fixed (r.withReasons_fixed l)

/-- R175: a record on which reasons may have been raised has a reason pending where it had one, or where one notifies. -/
theorem Record.withReasons_ne_empty (r : Record) (l : List Reason) (h : r.reasons ≠ .empty ∨ r.notifies l = true) :
    (r.withReasons l).reasons ≠ .empty := by
  simp only [ReasonSet.ne_empty_iff, Record.withReasons_has, Record.notifies_iff] at h ⊢
  rcases h with ⟨x, hx⟩ | ⟨loud, raises⟩
  · exact ⟨x, Or.inl hx⟩
  · obtain ⟨x, hx⟩ := List.exists_mem_of_ne_nil l raises
    exact ⟨x, Or.inr ⟨loud, hx⟩⟩

/-! ### Slots that may stand on a list -/

/-- R174: the slot holds a record of the port with a reason pending. -/
def Part.Notifiable (s : Part) (p : Port) (n : Nat) : Prop := ∃ r, s.record n = some r ∧ r.owner = p ∧ r.reasons ≠ .empty

/-- The slot stands on no list. -/
def Part.Unlisted (s : Part) (n : Nat) : Prop := ∀ p, n ∉ (s.port p).attention

section Lists
variable {s t : Part} {p : Port} {n : Nat} {q r : Record}

theorem Part.Notifiable.owner (h : s.Notifiable p n) (hr : s.record n = some r) : r.owner = p := by
  obtain ⟨x, hx, owner, -⟩ := h
  rw [hr, Option.some_inj] at hx
  exact hx ▸ owner

theorem Part.Notifiable.congr (h : s.Notifiable p n) (same : t.record n = s.record n) : t.Notifiable p n := by
  unfold Part.Notifiable
  rwa [same]

theorem Part.ListsSound.nodup (h : s.ListsSound) (p : Port) : (s.port p).attention.Nodup := (h p).1

theorem Part.ListsSound.notifiable (h : s.ListsSound) (hn : n ∈ (s.port p).attention) : s.Notifiable p n := (h p).2 n hn

/-- R1, R174: a FREE slot stands on no list. -/
theorem Part.ListsSound.unlisted_of_free (h : s.ListsSound) (free : s.record n = none) : s.Unlisted n := fun p hn => by
  obtain ⟨r, hr, -⟩ := h.notifiable (p := p) hn
  rw [free] at hr
  cases hr

/-- The lists lose slots alone, and the slots left on them keep a reason pending. -/
theorem Part.ListsSound.thin (h : s.ListsSound) (lists : ∀ p, (t.port p).attention.Sublist (s.port p).attention)
    (pending : ∀ p n, n ∈ (t.port p).attention → s.Notifiable p n → t.Notifiable p n) : t.ListsSound :=
  fun p => ⟨(h.nodup p).sublist (lists p), fun n hn => pending p n hn (h.notifiable ((lists p).subset hn))⟩

/-! ### What touches no list and no record -/

/-- The lists rest on the records and on themselves alone. -/
theorem Part.listsSound_congr (records : ∀ n, t.record n = s.record n)
    (lists : ∀ p, (t.port p).attention = (s.port p).attention) : t.ListsSound ↔ s.ListsSound := by
  simp only [Part.ListsSound, records, lists]

@[simp] theorem Part.listsSound_updateEngine (s : Part) (g : Segment) (f : Engine → Engine) :
    (s.updateEngine g f).ListsSound ↔ s.ListsSound :=
  Part.listsSound_congr (by simp) (by simp)

@[simp] theorem Part.listsSound_updateControl (s : Part) (g : Segment) (f : Control → Control) :
    (s.updateControl g f).ListsSound ↔ s.ListsSound :=
  Part.listsSound_congr (by simp) (by simp)

@[simp] theorem Part.listsSound_withSeg (s : Part) (g : Segment) (u : SegmentUnit) :
    (s.withSeg g u).ListsSound ↔ s.ListsSound :=
  Part.listsSound_congr (by simp) (by simp)

@[simp] theorem Part.listsSound_setFlags (s : Part) (g : Segment) : (s.setFlags g).ListsSound ↔ s.ListsSound :=
  Part.listsSound_congr (by simp) (by simp)

@[simp] theorem Part.listsSound_withStation (s : Part) (g : Segment) (k : Nat) (e : Station) :
    (s.withStation g k e).ListsSound ↔ s.ListsSound :=
  Part.listsSound_congr (by simp) (by simp)

@[simp] theorem Part.listsSound_forgetUnused (s : Part) (g : Segment) (k : Nat) :
    (s.forgetUnused g k).ListsSound ↔ s.ListsSound :=
  Part.listsSound_congr (by simp) (by simp)

@[simp] theorem Part.listsSound_dequeue (s : Part) (g : Segment) (n : Nat) :
    (s.dequeue g n).ListsSound ↔ s.ListsSound :=
  Part.listsSound_updateEngine ..

@[simp] theorem Part.listsSound_place (s : Part) (g : Segment) (n : Nat) (p : Placement) :
    (s.place g n p).ListsSound ↔ s.ListsSound :=
  Part.listsSound_congr (s.alike_place g n p).record fun q => congrArg _ ((s.alike_place g n p).ports q)

@[simp] theorem Part.listsSound_answer (s : Part) (p : Port) (f : RequestFrame) (a : Status) (l : List Byte) :
    (s.answer p f a l).ListsSound ↔ s.ListsSound :=
  Part.listsSound_congr (by simp) (by simp)

@[simp] theorem Part.listsSound_enterState (s : Part) (g : Segment) (new : SegmentState) :
    (s.enterState g new).ListsSound ↔ s.ListsSound := by
  simp [Part.enterState]

/-- Where every list is empty, the lists are sound. -/
theorem Part.listsSound_of_empty (h : ∀ p, (s.port p).attention = []) : s.ListsSound :=
  fun p => by simp [h p]

/-! ### What touches a record or a list -/

/-- R176: the list of one port loses slots, in order. -/
theorem Part.ListsSound.shorten (h : s.ListsSound) {f : PortUnit → PortUnit}
    (sub : (f (s.port p)).attention.Sublist (s.port p).attention) : (s.updatePort p f).ListsSound := by
  refine h.thin (fun q => ?_) fun _ _ _ hp => hp.congr (by simp)
  by_cases hq : q = p
  · subst hq
    rwa [Part.updatePort_port]
  · rw [Part.updatePort_port_ne s p q f hq]

/-- R174, R176: a slot taken off its owner's list stands on no list. -/
theorem Part.ListsSound.unlisted_of_taken (h : s.ListsSound) (hr : s.record n = some r) (owner : r.owner = p)
    {f : PortUnit → PortUnit} (gone : n ∉ (f (s.port p)).attention) : (s.updatePort p f).Unlisted n := by
  intro q hn
  by_cases hq : q = p
  · subst hq
    rw [Part.updatePort_port] at hn
    exact gone hn
  · rw [Part.updatePort_port_ne s p q f hq] at hn
    exact hq (((h.notifiable hn).owner hr).symm.trans owner)

/-- The record in a slot that stands on no list may be any. -/
theorem Part.ListsSound.withRecord_unlisted (h : s.ListsSound) (out : s.Unlisted n) (r : Record) :
    (s.withRecord n r).ListsSound := by
  refine h.thin (by simp) fun p m hm hp => hp.congr (s.withRecord_record_ne n m r ?_)
  rintro rfl
  exact out p (by simpa using hm)

theorem Part.ListsSound.freeSlot_unlisted (h : s.ListsSound) (out : s.Unlisted n) : (s.freeSlot n).ListsSound := by
  refine h.thin (by simp) fun p m hm hp => hp.congr (s.freeSlot_record_ne n m ?_)
  rintro rfl
  exact out p (by simpa using hm)

/-- A record is replaced by one with a reason pending where it had one. -/
theorem Part.Notifiable.withRecord {m : Nat} (h : s.Notifiable p m) (hq : s.record n = some q) (owner : r.owner = q.owner)
    (reasons : q.reasons ≠ .empty → r.reasons ≠ .empty) : (s.withRecord n r).Notifiable p m := by
  by_cases hm : m = n
  · subst hm
    obtain ⟨x, hx, rfl, pending⟩ := h
    rw [hq, Option.some_inj] at hx
    subst hx
    exact ⟨r, s.withRecord_record m r (Part.record_lt hq), owner, reasons pending⟩
  · exact h.congr (s.withRecord_record_ne n m r hm)

theorem Part.ListsSound.withRecord (h : s.ListsSound) (hq : s.record n = some q) (same : q.SameNotice r) :
    (s.withRecord n r).ListsSound :=
  h.thin (by simp) fun _ _ _ hp => hp.withRecord hq same.1 fun pending => same.2 ▸ pending

/-- R175: a record is put back with the reasons raised on it; where one notifies, its slot stands on its owner's list. -/
theorem Part.ListsSound.put {l : List Reason} (h : s.ListsSound) (hq : s.record n = some q) (same : q.SameNotice r) :
    (s.put n r l).ListsSound := by
  obtain ⟨owner, reasons⟩ := same
  have pending {p : Port} {m : Nat} (hp : s.Notifiable p m) : (s.put n r l).Notifiable p m :=
    (hp.withRecord (r := r.withReasons l) hq ((r.withReasons_owner l).trans owner) fun pending =>
      r.withReasons_ne_empty l (Or.inl (reasons ▸ pending))).congr (by unfold Part.put; dsimp only; split <;> simp)
  intro p
  rw [Part.put_port]
  split
  · next raised =>
    obtain ⟨notifies, rfl⟩ := raised
    refine ⟨nodup_joinList _ n (h.nodup _), fun m hm => ?_⟩
    obtain listed | rfl := (mem_joinList _ n m).mp hm
    · exact pending (h.notifiable listed)
    · exact ⟨_, s.put_record m r l (Part.record_lt hq), r.withReasons_owner l, r.withReasons_ne_empty l (Or.inr notifies)⟩
  · exact ⟨h.nodup p, fun m hm => pending (h.notifiable hm)⟩

/-- R26, R175: the claims on many records: the slots on which a reason is raised join their owners' lists. -/
theorem Part.ListsSound.forRecords (h : s.ListsSound) (test : Nat → Record → Bool) {f : Nat → Record → Verdict}
    (same : ∀ n (r : Record), r.SameNotice (f n r).1) : (s.forRecords test f).ListsSound := by
  have pending {p : Port} {m : Nat} (hp : s.Notifiable p m) : (s.forRecords test f).Notifiable p m := by
    obtain ⟨r, hr, rfl, pending⟩ := hp
    refine ⟨_, by rw [Part.forRecords_record, hr, Option.map_some], ?_⟩
    split
    · exact ⟨((f m r).1.withReasons_owner _).trans (same m r).1,
        (f m r).1.withReasons_ne_empty _ (Or.inl ((same m r).2 ▸ pending))⟩
    · exact ⟨rfl, pending⟩
  intro p
  rw [Part.forRecords_port]
  refine ⟨List.nodup_append.mpr ⟨h.nodup p, s.nodup_slotsWhere _, ?_⟩, fun m hm => ?_⟩
  · rintro m listed _ joins rfl
    obtain ⟨r, -, joins⟩ := (s.mem_slotsWhere _ m).mp joins
    simp [listed] at joins
  · obtain listed | joins := List.mem_append.mp hm
    · exact pending (h.notifiable listed)
    · obtain ⟨r, hr, joins⟩ := (s.mem_slotsWhere _ m).mp joins
      simp only [Bool.and_eq_true, beq_iff_eq] at joins
      obtain ⟨⟨⟨meets, owner⟩, notifies⟩, -⟩ := joins
      refine ⟨_, by rw [Part.forRecords_record, hr, Option.map_some, if_pos meets], ?_⟩
      exact ⟨((f m r).1.withReasons_owner _).trans owner, (f m r).1.withReasons_ne_empty _ (Or.inr notifies)⟩

/-- R175: one claim's slots are put in ascending order behind those that stood on the lists before it. -/
theorem Part.ListsSound.inSlotOrder (h : t.ListsSound) (before : s.ListsSound) : (s.inSlotOrder t).ListsSound := by
  intro p
  have listed (n : Nat) (hn : n ∈ ((s.inSlotOrder t).port p).attention) : n ∈ (t.port p).attention :=
    (s.mem_inSlotOrder t p (fun n hn _ => (h.notifiable hn).imp fun _ hr => hr.1) n).mp hn
  refine ⟨?_, fun n hn => (h.notifiable (listed n hn)).congr (by simp)⟩
  rw [Part.inSlotOrder_port]
  refine List.nodup_append.mpr ⟨(before.nodup p).filter _, t.nodup_slotsWhere _, ?_⟩
  rintro m stood _ joins rfl
  obtain ⟨r, -, joins⟩ := (t.mem_slotsWhere _ m).mp joins
  simp [List.mem_of_mem_filter stood] at joins

/-- R19, R176: a released slot leaves its owner's list. -/
theorem Part.ListsSound.release (h : s.ListsSound) (n : Nat) : (s.release n).ListsSound := by
  rcases hr : s.record n with _ | r
  · simpa [Part.release, hr] using h
  rw [Part.release_eq hr, Part.listsSound_forgetUnused]
  have out : (s.dequeue r.segment n).ListsSound := (s.listsSound_dequeue r.segment n).mpr h
  exact (out.shorten List.filter_sublist).freeSlot_unlisted (out.unlisted_of_taken (r := r) (by simpa using hr) rfl (by simp))

/-- R19: slots are released one after the other. -/
theorem Part.ListsSound.releases (h : s.ListsSound) (slots : List Nat) : (slots.foldl Part.release s).ListsSound :=
  List.foldlRecOn (motive := Part.ListsSound) _ _ h fun _ hu n _ => hu.release n

end Lists

end Sys2Proof.Machine
end

section
/-! SUPPORT. Every command keeps the Attention Lists sound (R174 to R180). -/

namespace Sys2Proof.Machine

/-! ### What a claim makes of a record leaves its owner and its reason set -/

theorem departureVerdict_sameNotice (e : Engine) (c : Condition) (n : Nat) (r : Record) :
    r.SameNotice (departureVerdict e c n r).1 := by
  unfold departureVerdict
  split
  case h_6 => split <;> exact ⟨rfl, rfl⟩
  all_goals exact ⟨rfl, rfl⟩

theorem attachVerdict_sameNotice (i : Identity) (notice : Bool) (n : Nat) (r : Record) :
    r.SameNotice (attachVerdict i notice n r).1 := by
  have cleared : r.SameNotice (if r.kind.outputClass then { r with sequenceBit := false, missed := false } else r) := by
    split <;> exact ⟨rfl, rfl⟩
  unfold attachVerdict
  dsimp only
  split
  case h_5 | h_6 => exact ⟨rfl, rfl⟩
  all_goals split <;> exact cleared

theorem barVerdict_sameNotice (n : Nat) (r : Record) : r.SameNotice (barVerdict n r).1 := by
  unfold barVerdict
  split <;> exact ⟨rfl, rfl⟩

theorem unbarVerdict_sameNotice (n : Nat) (r : Record) : r.SameNotice (unbarVerdict n r).1 := by
  unfold unbarVerdict
  split
  case h_1 | h_2 =>
    dsimp only
    split <;> exact ⟨rfl, rfl⟩
  all_goals exact ⟨rfl, rfl⟩

theorem tornVerdict_sameNotice (store : Nat → Bool) (n : Nat) (r : Record) : r.SameNotice (tornVerdict store n r).1 := by
  obtain ⟨r₀, hr₀, stored⟩ : ∃ r₀, r₀ = (if r.kind = .output && store n then { r with dirty := true } else r) ∧
      r.SameNotice r₀ := by
    refine ⟨_, rfl, ?_⟩
    split <;> exact ⟨rfl, rfl⟩
  unfold tornVerdict
  rw [← hr₀]
  dsimp only
  split
  case h_6 => exact ⟨rfl, rfl⟩
  all_goals repeat' split
  all_goals exact stored

theorem stepVerdict_sameNotice (n : Nat) (r : Record) : r.SameNotice (stepVerdict n r).1 := by
  unfold stepVerdict
  dsimp only
  split <;> exact ⟨rfl, rfl⟩

theorem Record.started_sameNotice (r : Record) : r.SameNotice r.started := by
  unfold Record.started
  split
  · exact ⟨rfl, rfl⟩
  · exact ⟨rfl, rfl⟩
  · split <;> exact ⟨rfl, rfl⟩

theorem Record.restartGuard_sameNotice (r : Record) : r.SameNotice r.restartGuard := by
  unfold Record.restartGuard
  split <;> exact ⟨rfl, rfl⟩

theorem Record.failure_sameNotice (r : Record) (result : ExchangeResult) : r.SameNotice (r.failure result).record := by
  have error (e : RecordError) : r.SameNotice (r.onError e).record := by
    unfold Record.onError
    dsimp only
    split <;> exact ⟨rfl, rfl⟩
  unfold Record.failure
  split
  case h_4 | h_5 | h_6 | h_7 => exact error _
  all_goals exact ⟨rfl, rfl⟩

theorem Record.success_sameNotice {r : Record} {k : ExchangeKind} {result : ExchangeResult} {e : Effect}
    (h : r.success k result = some e) : r.SameNotice e.record := by
  unfold Record.success at h
  split at h
  case h_4 =>
    cases h
    split <;> exact ⟨rfl, rfl⟩
  case h_8 => cases h
  all_goals
    cases h
    exact ⟨rfl, rfl⟩

theorem Record.served_sameNotice (r : Record) (k : ExchangeKind) (result : ExchangeResult) :
    r.SameNotice (r.served k result).record := by
  unfold Record.served
  rcases h : r.success k result with _ | e
  · exact r.failure_sameNotice result
  · exact Record.success_sameNotice h

theorem Record.aside_sameNotice (r : Record) (dirtyAfter : Bool) (k : ExchangeKind) (result : ExchangeResult) :
    r.SameNotice (r.aside dirtyAfter k result).1 := by
  unfold Record.aside
  split
  case h_7 => split <;> exact ⟨rfl, rfl⟩
  all_goals exact ⟨rfl, rfl⟩

section Claims
variable {s t : Part}

/-! ### Departure and return of a station (chapter 7) -/

theorem Part.ListsSound.departRecords (h : s.ListsSound) (g : Segment) (k : Nat) (c : Condition) :
    (s.departRecords g k c).ListsSound :=
  (Part.listsSound_updateEngine ..).mpr (h.forRecords _ (departureVerdict_sameNotice (s.engine g) c))

theorem Part.ListsSound.attach (h : s.ListsSound) (g : Segment) (k : Nat) (i : Identity) (notice : Bool) :
    (s.attach g k i notice).ListsSound := by
  have entered := (s.listsSound_withStation g k ⟨.present, some i, 0⟩).mpr h
  have compared := entered.forRecords (fun _ r => r.onStation g k) (attachVerdict_sameNotice i notice)
  simpa [Part.attach, Part.dequeueHalted] using compared

/-- R143 to R149: the Station Directory takes an outcome. -/
theorem Part.ListsSound.stationTakes (h : s.ListsSound) (g : Segment) (o : ExchangeOutcome) :
    (s.stationTakes g o).ListsSound := by
  have entered (k : Nat) (e : Station) : (s.withStation g k e).ListsSound := (s.listsSound_withStation g k e).mpr h
  unfold Part.stationTakes
  split
  · unfold Part.probeResult
    split
    · split
      · exact h.attach g _ _ _
      · exact h.attach g _ _ _
      · exact h
      · exact h
    · exact h
  · unfold Part.stationResult
    split
    · exact h
    · split
      · dsimp only
        split
        · exact (Part.listsSound_setFlags ..).mpr ((entered _ _).departRecords g _ _)
        · exact entered _ _
      · exact h

/-- R151: an accepted STATION_BAR. -/
theorem Part.ListsSound.barStation (h : s.ListsSound) (g : Segment) (k : Nat) (e : Station) :
    (s.barStation g k e).ListsSound := by
  have entered := (s.listsSound_withStation g k ⟨.barred, e.identity, 0⟩).mpr h
  have told := entered.forRecords (fun _ r => r.onStation g k) barVerdict_sameNotice
  unfold Part.barStation
  dsimp only
  split
  · exact (Part.listsSound_setFlags ..).mpr (entered.departRecords g k _)
  · exact (Part.listsSound_setFlags ..).mpr told
  · exact (Part.listsSound_setFlags ..).mpr told
  · exact h

/-- R153: an accepted STATION_UNBAR. -/
theorem Part.ListsSound.unbarStation (h : s.ListsSound) (g : Segment) (k : Nat) (e : Station) :
    (s.unbarStation g k e).ListsSound :=
  (Part.listsSound_setFlags ..).mpr
    (((Part.listsSound_withStation ..).mpr h).forRecords _ unbarVerdict_sameNotice)

/-! ### The requests on a record (chapter 2) -/

/-- R39: INSERT creates its record in a FREE slot, which stands on no list. -/
theorem Part.ListsSound.ownInsert (h : s.ListsSound) (p : Port) (f : RequestFrame) : (s.ownInsert p f).1.ListsSound := by
  rcases s.ownInsert_cases p f with e | ⟨a, kind, g, n, inserts, e⟩ <;> rw [e]
  · exact h
  · exact h.withRecord_unlisted (h.unlisted_of_free (Part.lowestFree_some inserts.slot).2) _

theorem Part.ListsSound.ownAmend (h : s.ListsSound) (p : Port) (f : RequestFrame) : (s.ownAmend p f).1.ListsSound := by
  refine Part.onOwned_keeps (P := Part.ListsSound) h fun n r ⟨_, hr, _⟩ => ?_
  split
  · exact h
  · split
    · exact h
    · split
      · exact h
      · unfold Part.amendRecord
        dsimp only
        split
        · split
          · exact ((s.listsSound_dequeue r.segment n).mpr h).put (q := r) (by simpa using hr) ⟨rfl, rfl⟩
          · exact h.withRecord hr ⟨rfl, rfl⟩
        · exact h.withRecord hr ⟨rfl, rfl⟩

theorem Part.ListsSound.ownWrite (h : s.ListsSound) (p : Port) (f : RequestFrame) : (s.ownWrite p f).1.ListsSound := by
  refine Part.onOwned_keeps (P := Part.ListsSound) h fun n r ⟨_, hr, _⟩ => ?_
  split
  · exact h
  · split
    · exact h
    · exact h.withRecord hr ⟨rfl, rfl⟩

/-- R46, R47: RESUME and RESTART. -/
theorem Part.ListsSound.ownReturn (h : s.ListsSound) (p : Port) (f : RequestFrame) {after : Record → Record}
    (same : ∀ r : Record, r.SameNotice (after r)) : (s.ownReturn p f after).1.ListsSound := by
  refine Part.onOwned_keeps (P := Part.ListsSound) h fun n r ⟨_, hr, _⟩ => ?_
  split
  · exact h
  · split
    · exact h
    · exact h.withRecord hr (same (s.resumed r))

/-- R50, R136: an owed CANCEL is placed. -/
theorem Part.ListsSound.oweCancel (h : s.ListsSound) {n : Nat} {r : Record} (hr : s.record n = some r) :
    (s.oweCancel n r).ListsSound :=
  (Part.listsSound_updateEngine ..).mpr (h.withRecord hr ⟨rfl, rfl⟩)

theorem Part.ListsSound.ownRetire (h : s.ListsSound) (p : Port) (f : RequestFrame) : (s.ownRetire p f).1.ListsSound := by
  refine Part.onOwned_keeps (P := Part.ListsSound) h fun n r ⟨_, hr, _⟩ => ?_
  have out := (s.listsSound_dequeue r.segment n).mpr h
  have hr' : (s.dequeue r.segment n).record n = some r := by simpa using hr
  split
  · unfold Part.retireRecord
    dsimp only
    split
    · exact out.withRecord hr' ⟨rfl, rfl⟩
    · split
      · split
        · exact out.oweCancel hr'
        · exact out.put hr' ⟨rfl, rfl⟩
      · exact out.put hr' ⟨rfl, rfl⟩
  · exact h

/-- R52: a purged record with an exchange in flight leaves its owner's list, and keeps its reason set. -/
theorem Part.ListsSound.silence (h : s.ListsSound) (n : Nat) : (s.silence n).ListsSound := by
  rcases hr : s.record n with _ | r
  · simpa [Part.silence, hr] using h
  rw [Part.silence_eq hr]
  have out := (s.listsSound_dequeue r.segment n).mpr h
  exact (out.withRecord (q := r) (r := r.purged) (by simpa using hr) ⟨rfl, rfl⟩).shorten List.filter_sublist

theorem Part.ListsSound.ownPurge (h : s.ListsSound) (p : Port) : (s.ownPurge p).1.ListsSound :=
  Part.ListsSound.releases
    (List.foldlRecOn (motive := Part.ListsSound) _ _ h fun _ hu n _ => hu.silence n) _

/-! ### TAKE_ATTENTION (R177) -/

/-- R177: the notice taken leaves the list, and then its record's reason set is emptied. -/
theorem Part.ListsSound.ownNotice (h : s.ListsSound) (p : Port) : (s.ownNotice p).1.ListsSound := by
  unfold Part.ownNotice
  split
  · exact h
  · next n rest head =>
    have taken : (s.updatePort p fun u => { u with attention := rest }).ListsSound :=
      h.shorten (head ▸ List.sublist_cons_self n rest)
    dsimp only
    split
    · exact taken
    · next r hr =>
      have owner : r.owner = p := (h.notifiable (head ▸ List.mem_cons_self)).owner hr
      have emptied := taken.withRecord_unlisted
        (h.unlisted_of_taken hr owner (List.nodup_cons.mp (head ▸ h.nodup p)).1) { r with reasons := .empty }
      dsimp only
      split
      · exact emptied.release n
      · exact emptied

/-! ### Outcomes (R102) -/

/-- R33, R50, R137: the outcome of a RETIRING record. -/
theorem Part.ListsSound.retiringOutcome (h : s.ListsSound) {n : Nat} {r : Record} (hr : s.record n = some r)
    (o : ExchangeOutcome) (present torn : Bool) : (s.retiringOutcome n r o present torn).ListsSound := by
  unfold Part.retiringOutcome
  split
  · exact h.release n
  · split
    · split <;> exact h.put hr ⟨rfl, rfl⟩
    · split
      · split
        · exact h.withRecord hr ⟨rfl, rfl⟩
        · split
          · exact h.oweCancel hr
          · exact h.put hr ⟨rfl, rfl⟩
      · exact h.put hr ⟨rfl, rfl⟩

/-- R102: an outcome is taken. -/
theorem Part.ListsSound.takeOutcome (h : s.ListsSound) (o : ExchangeOutcome) (torn : Bool) :
    (s.takeOutcome o torn).ListsSound := by
  unfold Part.takeOutcome
  split
  · exact h
  · split
    · exact h
    · next r hr =>
      unfold Part.outcomeOn
      dsimp only
      split
      case h_1 => exact h.retiringOutcome hr o _ torn
      case h_2 => exact h
      case h_3 =>
        split
        · exact h
        · exact h.put hr (r.aside_sameNotice ..)
      case h_4 | h_5 | h_6 =>
        split
        · exact h
        · split
          · exact h.put hr (r.aside_sameNotice ..)
          · exact (Part.listsSound_place ..).mpr (h.put hr (r.served_sameNotice ..))

theorem Part.ListsSound.nextOutcome (h : s.ListsSound) (g : Segment) : (s.nextOutcome g).ListsSound := by
  unfold Part.nextOutcome
  split
  · exact h
  · exact Part.ListsSound.takeOutcome (by simpa using h) _ false

theorem Part.ListsSound.nextStationOutcome (h : s.ListsSound) (g : Segment) (probe : Bool) :
    (s.nextStationOutcome g probe).ListsSound := by
  unfold Part.nextStationOutcome
  split
  · exact h
  · split
    · exact Part.ListsSound.stationTakes (by simpa using h) g _
    · exact h

/-! ### The teardown (R168 to R170) -/

/-- R169: the Station Directory's part of a teardown. -/
theorem Part.ListsSound.stationTeardown (h : s.ListsSound) (g : Segment) : (s.stationTeardown g).ListsSound := by
  unfold Part.stationTeardown
  split
  · exact h
  · next k _ =>
    have handed : (s.updateControl g fun c => { c with stationTeardowns := k }).ListsSound := by simpa using h
    have taken : ((s.updateControl g fun c => { c with stationTeardowns := k }).stationBacklog g).ListsSound :=
      Part.ListsSound.inSlotOrder (List.foldlRecOn (motive := Part.ListsSound) _ _
        ((Part.listsSound_updateEngine ..).mpr handed) fun _ hu o _ => hu.stationTakes g o) handed
    unfold Part.tearStations
    dsimp only
    split <;> simpa [Part.holdStanding] using taken

/-- R170: the records of the segment at the teardown. -/
theorem Part.ListsSound.tearRecords (h : s.ListsSound) (g : Segment) (x : Option Exchange) :
    (s.tearRecords g x).ListsSound :=
  Part.ListsSound.releases ((Part.listsSound_updateEngine ..).mpr (h.forRecords _ (tornVerdict_sameNotice _))) _

/-- R168, R170: the Table Controller's part of a teardown. -/
theorem Part.ListsSound.recordTeardown (h : s.ListsSound) (g : Segment) : (s.recordTeardown g).ListsSound := by
  unfold Part.recordTeardown
  split
  · exact h
  · next rest _ =>
    have handed : (s.updateControl g fun c => { c with recordTeardowns := rest }).ListsSound := by simpa using h
    have taken : ((s.updateControl g fun c => { c with recordTeardowns := rest }).recordBacklog g).ListsSound :=
      List.foldlRecOn (motive := Part.ListsSound) _ _ ((Part.listsSound_updateEngine ..).mpr handed)
        fun _ hu o _ => hu.takeOutcome o true
    exact (taken.tearRecords g _).inSlotOrder handed

/-! ### The cycle -/

theorem Part.ListsSound.takeStep (h : s.ListsSound) (g : Segment) : (s.takeStep g).ListsSound := by
  unfold Part.takeStep
  dsimp only
  split
  · exact (Part.listsSound_updateEngine ..).mpr (h.forRecords _ stepVerdict_sameNotice)
  · exact h

/-- R88, R90, R91: the head of the active part is considered, and its exchange may start. -/
theorem Part.ListsSound.considerHead (h : s.ListsSound) (g : Segment) (elapsed : Nat) :
    (s.considerHead g elapsed).ListsSound := by
  unfold Part.considerHead
  split
  · split
    · exact h
    · next r hr =>
      split
      · exact h
      · split
        · have drawn (k : Nat) : ({ s with freeDraws := k } : Part).ListsSound := h
          unfold Part.startHead
          simp only [Part.listsSound_updateEngine, Part.listsSound_dequeue]
          exact (drawn _).withRecord (q := r) hr r.started_sameNotice
        · simpa using h
  · exact h

/-! ### Claims that touch no list and no record -/

@[simp] theorem Part.listsSound_expireCycle (s : Part) (g : Segment) : (s.expireCycle g).ListsSound ↔ s.ListsSound := by
  unfold Part.expireCycle
  dsimp only
  split <;> simp

@[simp] theorem Part.listsSound_endScan (s : Part) (g : Segment) : (s.endScan g).ListsSound ↔ s.ListsSound := by
  simp [Part.endScan]

@[simp] theorem Part.listsSound_scanFrom (s : Part) (g : Segment) (k : Nat) :
    (s.scanFrom g k).ListsSound ↔ s.ListsSound := by
  unfold Part.scanFrom
  split <;> simp

@[simp] theorem Part.listsSound_endSettling (s : Part) (g : Segment) : (s.endSettling g).ListsSound ↔ s.ListsSound := by
  unfold Part.endSettling
  split
  · dsimp only
    split
    · simp
    · split <;> simp
  · rfl

@[simp] theorem Part.listsSound_considerProbe (s : Part) (g : Segment) (elapsed : Nat) :
    (s.considerProbe g elapsed).ListsSound ↔ s.ListsSound := by
  unfold Part.considerProbe
  split
  · dsimp only
    split <;> simp
  · rfl

@[simp] theorem Part.listsSound_startScanProbe (s : Part) (g : Segment) :
    (s.startScanProbe g).ListsSound ↔ s.ListsSound := by
  unfold Part.startScanProbe
  split
  · split <;> simp
  · rfl

@[simp] theorem Part.listsSound_expireSettle (s : Part) (g : Segment) : (s.expireSettle g).ListsSound ↔ s.ListsSound := by
  unfold Part.expireSettle
  split <;> simp

@[simp] theorem Part.listsSound_tearDown (s : Part) (g : Segment) (new : SegmentState) :
    (s.tearDown g new).ListsSound ↔ s.ListsSound := by
  simp [Part.tearDown]

@[simp] theorem Part.listsSound_supply (s : Part) (g : Segment) (level : Bool) :
    (s.supply g level).ListsSound ↔ s.ListsSound := by
  unfold Part.supply
  dsimp only
  split <;> simp

@[simp] theorem Part.listsSound_commandOn (s : Part) (g : Segment) : (s.commandOn g).1.ListsSound ↔ s.ListsSound := by
  unfold Part.commandOn
  split
  · dsimp only
    split <;> simp
  all_goals rfl

@[simp] theorem Part.listsSound_commandOff (s : Part) (g : Segment) : (s.commandOff g).1.ListsSound ↔ s.ListsSound := by
  unfold Part.commandOff
  split <;> simp

@[simp] theorem Part.listsSound_commandHold (s : Part) (g : Segment) : (s.commandHold g).1.ListsSound ↔ s.ListsSound := by
  unfold Part.commandHold
  split <;> simp

@[simp] theorem Part.listsSound_commandRelease (s : Part) (g : Segment) :
    (s.commandRelease g).1.ListsSound ↔ s.ListsSound := by
  unfold Part.commandRelease
  split <;> simp

@[simp] theorem Part.listsSound_ownConfigure (s : Part) (f : RequestFrame) :
    (s.ownConfigure f).1.ListsSound ↔ s.ListsSound := by
  unfold Part.ownConfigure
  split
  · split
    · rfl
    · split
      · rfl
      · split <;> simp
  · rfl

/-! ### The ports -/

theorem Part.ListsSound.ownStatus (h : s.ListsSound) (p : Port) (f : RequestFrame) : (s.ownStatus p f).1.ListsSound := by
  unfold Part.ownStatus
  split
  · split
    · exact h
    · exact h.shorten (by simp)
  · exact h

theorem Part.ListsSound.ownPortConfigure (h : s.ListsSound) (p : Port) (f : RequestFrame) :
    (s.ownPortConfigure p f).1.ListsSound := by
  unfold Part.ownPortConfigure
  split
  · split
    · exact h
    · exact h
    · exact h.shorten (.refl _)
  · exact h

/-- A claim of a bus changes what the ports' buffers hold and what goes out alone. -/
theorem Part.ListsSound.bus (h : s.ListsSound) (slots : t.slots = s.slots) (port0 : t.port0.attention = s.port0.attention)
    (port1 : t.port1.attention = s.port1.attention) : t.ListsSound := by
  refine (Part.listsSound_congr (Part.record_congr slots) fun p => ?_).mpr h
  cases p
  · exact port0
  · exact port1

/-- R194: an operation of Port 0. -/
theorem Part.ListsSound.onPort0 {α : Type} (h : s.ListsSound) (tr : Spi α) (out : α → Part → List Byte)
    (b : α → Part → Buffer) : (s.onPort0 tr fun a s => s.transact (out a s) (b a s)).ListsSound := by
  cases tr with
  | rest a =>
    unfold Part.onPort0 Part.afterFall
    dsimp only
    split
    · exact h.bus rfl rfl rfl
    · exact h
  | _ => exact h.bus rfl rfl rfl

/-! ### Every command -/

/-- A request whose owner keeps the lists sound. -/
theorem Part.ListsSound.takeRequest (h : s.ListsSound) {p : Port} {c : RequestCode} {owner : RequestFrame → Part × Answer}
    (owned : ∀ f, (owner f).1.ListsSound) : (s.takeRequest p c owner).ListsSound :=
  Part.takeRequest_keeps (P := Part.ListsSound) h fun f _ => (Part.listsSound_answer ..).mpr (owned f)

theorem Part.ListsSound.takeCommand (h : s.ListsSound) {p : Port} {c : SegmentCommand} {run : Segment → Part × Answer}
    (runs : ∀ g, (run g).1.ListsSound ↔ s.ListsSound) : (s.takeCommand p c run).ListsSound :=
  Part.takeCommand_keeps (P := Part.ListsSound) h (fun _ _ _ => (Part.listsSound_answer ..).mpr) fun g => (runs g).mpr h

end Claims

/-- R174: every command keeps the lists sound. -/
theorem exec_keeps_listsSound (c : Instr) (s t : State) (hl : s.part.ListsSound) (h : exec c s = .next t) :
    t.part.ListsSound := by
  have claimed {f : Part → Part} (hf : (f s.part).ListsSound) (h : s.claim f = .next t) : t.part.ListsSound :=
    State.claim_keeps (P := Part.ListsSound) hl hf h
  have quiet {f : Part → Part} (hf : (f s.part).ListsSound ↔ s.part.ListsSound) (h : s.claim f = .next t) :
      t.part.ListsSound := claimed (hf.mpr hl) h
  have asked {p : Port} {k : RequestCode} {owner : Part → RequestFrame → Part × Answer}
      (hf : ∀ f, (owner s.part f).1.ListsSound) (h : (s.claim fun s => s.takeRequest p k (owner s)) = .next t) :
      t.part.ListsSound := claimed (hl.takeRequest hf) h
  cases c
  all_goals dsimp only [exec] at h
  case lookup | scanFrom | read => exact claimed (hl.takeRequest fun _ => hl) h
  case insert p => exact asked (fun f => hl.ownInsert p f) h
  case amend p => exact asked (fun f => hl.ownAmend p f) h
  case write p => exact asked (fun f => hl.ownWrite p f) h
  case resume p => exact asked (fun f => hl.ownReturn p f fun _ => ⟨rfl, rfl⟩) h
  case restart p => exact asked (fun f => hl.ownReturn p f Record.restartGuard_sameNotice) h
  case retire p => exact asked (fun f => hl.ownRetire p f) h
  case purge p => exact asked (fun _ => hl.ownPurge p) h
  case takeAttention p => exact asked (fun _ => hl.ownNotice p) h
  case stationQuery => exact asked (fun f => Part.onStation_keeps (P := Part.ListsSound) hl fun _ _ _ _ => hl) h
  case stationBar =>
    exact asked (fun f => Part.onStation_keeps (P := Part.ListsSound) hl fun g n e _ => hl.barStation g n e) h
  case stationUnbar =>
    refine asked (fun f => Part.onStation_keeps (P := Part.ListsSound) hl fun g n e _ => ?_) h
    split
    · exact hl.unbarStation g n e
    · exact hl
  case segmentConfigure p =>
    refine claimed (Part.takeConfigure_keeps (P := Part.ListsSound) hl fun f _ _ => ?_) h
    simpa using hl
  case segmentCommandOn => exact claimed (hl.takeCommand s.part.listsSound_commandOn) h
  case segmentCommandOff => exact claimed (hl.takeCommand s.part.listsSound_commandOff) h
  case segmentCommandHold => exact claimed (hl.takeCommand s.part.listsSound_commandHold) h
  case segmentCommandRelease => exact claimed (hl.takeCommand s.part.listsSound_commandRelease) h
  case segmentStatus p => exact asked (fun f => hl.ownStatus p f) h
  case portConfigure p => exact asked (fun f => hl.ownPortConfigure p f) h
  case submit | collect | poll | unknownOperation => exact claimed (hl.onPort0 _ _ _) h
  case writeTransfer | readTransfer =>
    refine claimed ?_ h
    split <;> exact hl.bus rfl rfl rfl
  case markEnd | requestEnd | replyWindowExpiry | replyStart | characterReceived | characterGapExpiry |
      replyDeadlineExpiry => exact quiet (Part.listsSound_updateEngine ..) h
  case cycleTimerExpiry g => exact quiet (s.part.listsSound_expireCycle g) h
  case settlingEnd g => exact quiet (s.part.listsSound_endSettling g) h
  case scanProbeStart g => exact quiet (s.part.listsSound_startScanProbe g) h
  case settleTimerExpiry g => exact quiet (s.part.listsSound_expireSettle g) h
  case cycleStep g => exact claimed (hl.takeStep g) h
  case exchangeStart g elapsed =>
    refine claimed ?_ h
    split
    · exact hl.considerHead g elapsed
    · exact hl
  case probeStart g elapsed =>
    refine quiet ?_ h
    split
    · exact s.part.listsSound_considerProbe g elapsed
    · rfl
  case outcomeTaken g => exact claimed (hl.nextOutcome g) h
  case stationOutcome g => exact claimed (hl.nextStationOutcome g false) h
  case probeOutcome g => exact claimed (hl.nextStationOutcome g true) h
  case stationTeardown g => exact claimed (hl.stationTeardown g) h
  case recordTeardown g => exact claimed (hl.recordTeardown g) h
  case supplyFault g level =>
    cases h
    exact (s.part.listsSound_supply g level).mpr hl
  case reset | powerOn =>
    cases h
    exact Part.listsSound_of_empty fun p => by rw [Part.heldInReset_port]; rfl
  case resetRelease adr =>
    cases h
    show (s.part.riseFromReset adr).ListsSound
    unfold Part.riseFromReset
    split
    · exact hl.bus rfl rfl rfl
    · exact hl

/-- Settles O58: every command keeps the lists sound, and so does every step. -/
theorem listsStaySound : Obligations.ListsStaySound := by
  intro s t hl h
  exact step_keeps (P := Part.ListsSound) (fun _ => id) exec_keeps_listsSound hl h

end Sys2Proof.Machine
end

section
/-! SUPPORT. TAKE_ATTENTION, PORT_CONFIGURE and the interrupt lines (R177, R178, R182, R183). -/

namespace Sys2Proof.Machine

section Requests
variable {p : Port} {s : State} {f : RequestFrame} {t : Part} {status : Status} {results : List Byte}

theorem exec_takeAttention (standing : s.part.Standing p .takeAttention f)
    (own : s.part.ownNotice p = (t, ⟨status, results⟩)) :
    exec (.takeAttention p) s = .next (s.with (t.answer p f status results)) :=
  s.claim_answered p _ f (fun s _ => s.ownNotice p) standing own

theorem exec_portConfigure (standing : s.part.Standing p .portConfigure f)
    (own : s.part.ownPortConfigure p f = (t, ⟨status, results⟩)) :
    exec (.portConfigure p) s = .next (s.with (t.answer p f status results)) :=
  s.claim_answered p _ f (fun s => s.ownPortConfigure p) standing own

end Requests

/-! ### TAKE_ATTENTION (R177, R178) -/

section Notice
variable {s : Part} {p : Port} {n : Nat} {rest : List Nat} {r : Record}

theorem Part.ownNotice_empty (h : (s.port p).attention = []) : s.ownNotice p = (s, ⟨.empty, []⟩) := by
  unfold Part.ownNotice
  rw [h]
  rfl

/-- R177: the part once the head notice is off the list and its record's reason set is emptied. -/
def Part.noticeTaken (s : Part) (p : Port) (n : Nat) (rest : List Nat) (r : Record) : Part :=
  (s.updatePort p fun u => { u with attention := rest }).withRecord n { r with reasons := .empty }

theorem Part.ownNotice_head (head : (s.port p).attention = n :: rest) (hr : s.record n = some r) :
    s.ownNotice p =
      (if r.state = .retired then (s.noticeTaken p n rest r).release n else s.noticeTaken p n rest r,
        ⟨.done, noticeResults n r rest.length⟩) := by
  unfold Part.ownNotice
  rw [head]
  dsimp only
  rw [hr]
  rfl

end Notice

/-- Settles O31: an empty list is answered EMPTY, and the head notice of another is taken with its record's reasons. -/
theorem takeAttentionReturnsHead : Obligations.TakeAttentionReturnsHead := by
  intro p s f standing
  refine ⟨fun none => exec_takeAttention standing (Part.ownNotice_empty none), fun n rest r head hr => ?_⟩
  exact exec_takeAttention standing (Part.ownNotice_head head hr)

/-! ### PORT_CONFIGURE (R182) -/

section Configure
variable {s : Part} {p : Port} {f : RequestFrame} {x y : Byte}

/-- R182: the first argument is checked first. -/
theorem Part.ownPortConfigure_badList (args : f.args = [x, y]) (hx : yesNoOf x = none) :
    s.ownPortConfigure p f = (s, .badField 0) := by
  simp only [Part.ownPortConfigure, args, hx]

theorem Part.ownPortConfigure_badSegment (args : f.args = [x, y]) (hx : yesNoOf x ≠ none) (hy : yesNoOf y = none) :
    s.ownPortConfigure p f = (s, .badField 1) := by
  simp only [Part.ownPortConfigure, args, yesNoOf_of_named hx, hy]

theorem Part.ownPortConfigure_accepted (args : f.args = [x, y]) (hx : yesNoOf x ≠ none) (hy : yesNoOf y ≠ none) :
    s.ownPortConfigure p f =
      (s.updatePort p fun u => { u with listEnable := x == 1, segmentEnable := y == 1 }, .bare .done) := by
  simp only [Part.ownPortConfigure, args, yesNoOf_of_named hx, yesNoOf_of_named hy]

end Configure

/-- R191: a byte that is yes or no names one of them. -/
theorem yesNoOf_ne_none {x : Byte} (h : x = 0 ∨ x = 1) : yesNoOf x ≠ none := by
  rw [Ne, yesNoOf_eq_none_iff]
  tauto

/-! ### The interrupt lines (R183) -/

/-- R183: a port's line is asserted for its list or for one of its flags, where the enable allows it. -/
theorem PortUnit.interrupt_iff (u : PortUnit) : u.interrupt = true ↔
    (u.attention ≠ [] ∧ u.listEnable = true) ∨ ((u.flagA = true ∨ u.flagB = true) ∧ u.segmentEnable = true) := by
  simp [PortUnit.interrupt]

/-- Settles O32: the arguments are checked in order, both enables are replaced, and the line follows them. -/
theorem portConfigureSetsEnables : Obligations.PortConfigureSetsEnables := by
  refine ⟨fun p s f x y standing args => ⟨fun bad => ?_, fun hx bad => ?_, fun hx hy => ?_⟩, PortUnit.interrupt_iff⟩
  · exact exec_portConfigure standing (Part.ownPortConfigure_badList args ((yesNoOf_eq_none_iff x).mpr bad))
  · exact exec_portConfigure standing
      (Part.ownPortConfigure_badSegment args (yesNoOf_ne_none hx) ((yesNoOf_eq_none_iff y).mpr bad))
  · exact exec_portConfigure standing
      (Part.ownPortConfigure_accepted args (yesNoOf_ne_none hx) (yesNoOf_ne_none hy))

end Sys2Proof.Machine
end

section
/-! SUPPORT. What a port's buffer takes and what goes out of it (R186 to R188, R192, R194 to R196, R198, R199). -/

namespace Sys2Proof.Machine

/-! ### Request frames (R187, R188) -/

theorem RequestCode.mem_all (c : RequestCode) : c ∈ RequestCode.all := by
  cases c <;> decide

/-- R188: the port's two checks. -/
theorem RequestFrame.admitted_iff (f : RequestFrame) : f.admitted = true ↔
    ∃ c : RequestCode, c.code = f.code ∧ c.argRange.1 ≤ f.args.length ∧ f.args.length ≤ c.argRange.2 := by
  simp [RequestFrame.admitted, RequestCode.mem_all]

/-- R187: the frame that a run of bytes completes, whatever follows it. -/
theorem frameOf_complete (code sequence high low : Byte) {n : Byte} {args : List Byte} (h : n.toNat = args.length)
    (extra : List Byte) : frameOf (code :: sequence :: high :: low :: n :: (args ++ extra)) =
      some ⟨code, sequence, high.toNat * 256 + low.toNat, args⟩ := by
  simp [frameOf, ofBe16, h]

/-- R187: a run of bytes that ends before its arguments do completes no frame. -/
theorem frameOf_partial {bytes : List Byte} (h : ∀ n, bytes[4]? = some n → bytes.length < 5 + n.toNat) :
    frameOf bytes = none := by
  unfold frameOf
  split
  · next n rest =>
    have short := h n rfl
    simp only [List.length_cons] at short
    exact if_neg (by omega)
  · rfl

/-! ### The buffer (R186, R195, R196) -/

theorem Buffer.take_admitted {f : RequestFrame} (h : f.admitted = true) : Buffer.take f = .submitted f :=
  if_pos h

/-- R188: the port itself answers BAD_REQUEST to a frame that fails its checks. -/
theorem Buffer.take_rejected {f : RequestFrame} (h : ¬f.admitted = true) :
    Buffer.take f = .answered [0x10, f.sequence, f.code, 0] :=
  if_neg h

theorem Buffer.submit_complete {bytes : List Byte} {f : RequestFrame} (h : frameOf bytes = some f) :
    Buffer.submit .empty bytes = Buffer.take f := by
  simp only [Buffer.submit, h]

/-- R195, R198: a partial frame is discarded. -/
theorem Buffer.submit_partial {bytes : List Byte} (h : frameOf bytes = none) : Buffer.submit .empty bytes = .empty := by
  simp only [Buffer.submit, h]

/-- R186: a port that is not EMPTY keeps what it holds. -/
theorem Buffer.submit_busy {b : Buffer} (h : b ≠ .empty) (bytes : List Byte) : b.submit bytes = b := by
  cases b with
  | empty => exact absurd rfl h
  | submitted f => simp only [Buffer.submit]
  | answered r => simp only [Buffer.submit]

theorem Buffer.isEmpty_of_ne {b : Buffer} (h : b ≠ .empty) : b.isEmpty = false := by
  cases b with
  | empty => exact absurd rfl h
  | submitted f => rfl
  | answered r => rfl

/-- R195: the link answer of a port that is not EMPTY is PORT_BUSY. -/
theorem Buffer.linkAnswer_busy {b : Buffer} (h : b ≠ .empty) : b.linkAnswer = 0x1C := by
  simp [Buffer.linkAnswer, Buffer.isEmpty_of_ne h, Status.code]

/-! ### The port status byte (R194) -/

/-- R194: the buffer state in bits 1 and 0, the Attention List in bit 2, the flags in bits 3 and 4. -/
theorem PortUnit.statusByte_toNat (u : PortUnit) : u.statusByte.toNat =
    u.buffer.stateCode + (if u.attention = [] then 0 else 4) + (if u.flagA then 8 else 0) + (if u.flagB then 16 else 0) := by
  have code : u.buffer.stateCode ≤ 2 := by
    cases u.buffer <;> simp [Buffer.stateCode]
  have list : 4 * (!u.attention.isEmpty).toNat = if u.attention = [] then 0 else 4 := by
    cases u.attention <;> rfl
  have flag : ∀ (k : Nat) (b : Bool), k * b.toNat = if b then k else 0 := by
    intro k b
    cases b <;> simp
  rw [PortUnit.statusByte, BitVec.toNat_ofNat, list, flag, flag, Nat.mod_eq_of_lt]
  split_ifs <;> omega

/-! ### Bytes on the two buses (R193, R197) -/

/-- The items of equal blocks in a row: block `k` has its items from place `n * k` on. -/
theorem getElem?_flatMap_blocks {α β : Type} {f : α → List β} {n : Nat} (size : ∀ a, (f a).length = n) (l : List α)
    (k : Nat) {i : Nat} (hi : i < n) : (l.flatMap f)[n * k + i]? = l[k]?.bind fun a => (f a)[i]? := by
  induction l generalizing k with
  | nil => rfl
  | cons a l ih =>
    rw [List.flatMap_cons]
    cases k with
    | zero =>
      rw [Nat.mul_zero, Nat.zero_add, List.getElem?_append_left (by rwa [size])]
      rfl
    | succ k =>
      have later : n * (k + 1) + i - (f a).length = n * k + i := by
        rw [size, Nat.mul_succ]
        omega
      rw [List.getElem?_append_right (by rw [size, Nat.mul_succ]; omega), later, ih]
      rfl

theorem length_flatMap_blocks {α β : Type} {f : α → List β} {n : Nat} (size : ∀ a, (f a).length = n) (l : List α) :
    (l.flatMap f).length = n * l.length := by
  simp [List.length_flatMap, size, Nat.mul_comm]

theorem busBits_length (b : Byte) : (busBits b).length = 8 := rfl

/-- R193, R197: the bits of a byte, most significant first. -/
theorem busBits_getElem? (b : Byte) {i : Nat} (h : i < 8) : (busBits b)[i]? = some (b.getLsbD (7 - i)) := by
  interval_cases i <;> rfl

end Sys2Proof.Machine
end

section
/-! SUPPORT. The transactions of Port 0 (R185, R193 to R196), in bytes and bit by bit. -/

namespace Sys2Proof.Machine

/-! ### What is clocked in a transaction (R194) -/

/-- R194, log 24: the two commands in which an operation is clocked: after a falling edge that was taken, behind what has gone
out since; or with its two edges, behind the port status byte alone. -/
def Part.Clocks {α : Type} (s : Part) (t : Spi α) (following : α) (first : List Byte) (phase : Port0Phase) : Prop :=
  (t = .rest following ∧ s.port0Phase = .begun ∧ first = s.port0Out ∧ phase = .operating) ∨
    (t = .whole following ∧ first = [s.port0.statusByte] ∧ phase = .idle)

/-- Port 0 after an operation that made this of its buffer, and shifted out these bytes. -/
def Part.shifted (s : Part) (phase : Port0Phase) (out : List Byte) (b : Buffer) : Part :=
  { s with port0 := { s.port0 with buffer := b }, port0Phase := phase, port0Out := out }

/-- An operation works alike in both commands. -/
theorem Part.onPort0_clocks {α : Type} {s : Part} {t : Spi α} {following : α} {first : List Byte} {phase : Port0Phase}
    (h : s.Clocks t following first phase) (out : α → PortUnit → List Byte) (b : α → Buffer → Buffer) :
    (s.onPort0 t fun a s => s.transact (out a s.port0) (b a s.port0.buffer)) =
      s.shifted phase (first ++ out following s.port0) (b following s.port0.buffer) := by
  obtain ⟨rfl, begun, rfl, rfl⟩ | ⟨rfl, rfl, rfl⟩ := h
  · exact Part.onPort0_rest _ _ _ begun
  · rfl

section Clocked
variable {s : State} {first : List Byte} {phase : Port0Phase} (awake : s.part.resetLow = false)
include awake

/-- R194: a command that clocks an operation, by what the operation shifts out and what it makes of the buffer. -/
theorem State.claim_clocks {α : Type} {t : Spi α} {following : α} (h : s.part.Clocks t following first phase)
    (out : α → PortUnit → List Byte) (b : α → Buffer → Buffer) :
    (s.claim (·.onPort0 t fun a s => s.transact (out a s.port0) (b a s.port0.buffer))) = .next (s.with
      (s.part.shifted phase (first ++ out following s.part.port0) (b following s.part.port0.buffer))) := by
  rw [State.claim_awake _ _ awake, Part.onPort0_clocks h]

theorem exec_submit {t : Spi (List Byte)} {bytes : List Byte} (h : s.part.Clocks t bytes first phase) :
    exec (.submit t) s = .next (s.with (s.part.shifted phase
      (first ++ List.replicate (bytes.length + 1) s.part.port0.buffer.linkAnswer) (s.part.port0.buffer.submit bytes))) :=
  State.claim_clocks awake h (fun bytes u => List.replicate (bytes.length + 1) u.buffer.linkAnswer)
    fun bytes b => b.submit bytes

section Out
variable {t : Spi Nat} {n : Nat} (h : s.part.Clocks t n first phase)
include h

theorem exec_collect : exec (.collect t) s = .next (s.with (s.part.shifted phase
    (first ++ clockOut s.part.port0.buffer.outgoing (n + 1)) (s.part.port0.buffer.collect n))) :=
  State.claim_clocks awake h (fun n u => clockOut u.buffer.outgoing (n + 1)) fun n b => b.collect n

theorem exec_poll : exec (.poll t) s = .next (s.with (s.part.shifted phase
    (first ++ clockOut [s.part.port0.statusByte] (n + 1)) s.part.port0.buffer)) :=
  State.claim_clocks awake h (fun n u => clockOut [u.statusByte] (n + 1)) fun _ b => b

theorem exec_unknownOperation (operation : Byte) : exec (.unknownOperation operation t) s =
    .next (s.with (s.part.shifted phase (first ++ clockOut [] (n + 1)) s.part.port0.buffer)) :=
  State.claim_clocks awake h (fun n _ => clockOut [] (n + 1)) fun _ b => b

end Out

/-- R194: P0CSn falls. -/
theorem State.claim_fall {α : Type} (operation : α → Part → Part) :
    s.claim (·.onPort0 .fall operation) = .next (s.with s.part.select) :=
  s.claim_awake _ awake

/-- R193, R194: P0CSn rises. -/
theorem State.claim_rise {α : Type} (operation : α → Part → Part) :
    s.claim (·.onPort0 .rise operation) = .next (s.with s.part.deselect) :=
  s.claim_awake _ awake

/-- R185: nothing is taken without a falling edge of its own. -/
theorem State.claim_abandoned {α : Type} (idle : s.part.port0Phase ≠ .begun) (following : α)
    (operation : α → Part → Part) : s.claim (·.onPort0 (.rest following) operation) = .next s := by
  rw [State.claim_awake _ _ awake, Part.onPort0_abandoned _ _ _ idle]
  rfl

end Clocked

/-! ### SUBMIT (R195) -/

section Submit
variable {s : State} {t : Spi (List Byte)} {bytes : List Byte} {first : List Byte} {phase : Port0Phase}
  (awake : s.part.resetLow = false) (h : s.part.Clocks t bytes first phase)
include awake h

/-- R195: an EMPTY port makes of the bytes what its buffer does; the link answer is the model's choice (log 18). -/
theorem exec_submit_empty (empty : s.part.port0.buffer = .empty) : exec (.submit t) s = .next (s.with
    (s.part.shifted phase (first ++ List.replicate (bytes.length + 1) 0x00) (Buffer.submit .empty bytes))) := by
  rw [exec_submit awake h, empty]
  rfl

/-- R186, R195: a port that is not EMPTY shifts out PORT_BUSY. -/
theorem exec_submit_busy (busy : s.part.port0.buffer ≠ .empty) : exec (.submit t) s = .next (s.with
    (s.part.shifted phase (first ++ List.replicate (bytes.length + 1) 0x1C) s.part.port0.buffer)) := by
  rw [exec_submit awake h, Buffer.linkAnswer_busy busy, Buffer.submit_busy busy]

end Submit

/-- Settles O33: SUBMIT by what stands in the port and by what the bytes complete, alike in both commands that clock it. -/
theorem submitTakesFrame : Obligations.SubmitTakesFrame := by
  refine ⟨rfl, fun _ => rfl, fun s bytes awake => ⟨State.claim_fall awake _, State.claim_rise awake _,
    fun idle => State.claim_abandoned awake idle bytes _, fun c first phase clocked => ?_⟩⟩
  obtain ⟨t, rfl, clocks⟩ : ∃ t, c = .submit t ∧ s.part.Clocks t bytes first phase := by
    obtain ⟨rfl, rest⟩ | ⟨rfl, whole⟩ := clocked
    · exact ⟨_, rfl, Or.inl ⟨rfl, rest⟩⟩
    · exact ⟨_, rfl, Or.inr ⟨rfl, whole⟩⟩
  refine ⟨fun empty => ⟨?_, fun incomplete => ?_⟩, exec_submit_busy awake clocks⟩
  · intro code sequence high low n args extra count split f passes
    have complete : frameOf bytes = some f := split ▸ frameOf_complete code sequence high low count extra
    have taken := exec_submit_empty awake clocks empty
    rw [Buffer.submit_complete complete] at taken
    constructor
    · intro good
      rwa [Buffer.take_admitted (f.admitted_iff.mpr good)] at taken
    · intro bad
      rwa [Buffer.take_rejected (mt f.admitted_iff.mp bad)] at taken
  · have taken := exec_submit_empty awake clocks empty
    rwa [Buffer.submit_partial (frameOf_partial incomplete)] at taken

/-! ### Operations (R194) -/

theorem port0Operation_unknown {operation : Byte} (submit : operation ≠ 0xA1) (collect : operation ≠ 0xA2)
    (poll : operation ≠ 0xA3) (following : List Byte) :
    port0Operation operation following = .unknownOperation operation (.whole following.length) := by
  simp only [port0Operation, submit, collect, poll, if_false]

/-! ### P0SDO and P0SDI, bit by bit (R193) -/

/-- R193: the bytes whose bits were taken, with a byte that is not complete behind them. -/
theorem bytesOf_flatMap_busBits (bytes : List Byte) {part : List Bool} (h : part.length < 8) :
    bytesOf (bytes.flatMap busBits ++ part) = bytes := by
  induction bytes with
  | nil => exact bytesOf_short part h
  | cons b bytes ih => rw [List.flatMap_cons, List.append_assoc, bytesOf_busBits, ih]

/-- R193: a bit is taken where P0SCK was low and is high. -/
theorem risingBits_eq (clock sdi : Bool) (line : List (Bool × Bool)) : risingBits clock line =
    (((clock, sdi) :: line).zip line).filterMap fun edge =>
      if edge.1.1 = false ∧ edge.2.1 = true then some edge.2.2 else none := by
  induction line generalizing clock sdi with
  | nil => rfl
  | cons now line ih =>
    obtain ⟨sck, level⟩ := now
    rw [risingBits, List.zip_cons_cons, List.filterMap_cons, ← ih sck level]
    cases clock <;> cases sck <;> rfl

/-- R193: the falling edges, as the places where P0SCK was high and is low. -/
theorem fallingEdges_eq (clock : Bool) (line : List Bool) :
    fallingEdges clock line = ((clock :: line).zip line).countP fun edge => edge.1 && !edge.2 := by
  induction line generalizing clock with
  | nil => rfl
  | cons sck line ih =>
    rw [fallingEdges, List.zip_cons_cons, List.countP_cons, ih, Nat.add_comm]
    cases clock <;> cases sck <;> rfl

/-- R193: P0SCK falls no more often than it rises, but for a fall from the level before. -/
theorem fallingEdges_le (clock : Bool) (line : List (Bool × Bool)) :
    fallingEdges clock (line.map Prod.fst) ≤ clock.toNat + (risingBits clock line).length := by
  induction line generalizing clock with
  | nil => exact Nat.zero_le _
  | cons now line ih =>
    obtain ⟨sck, sdi⟩ := now
    have rest := ih sck
    cases clock <;> cases sck <;> simp [fallingEdges, risingBits] at rest ⊢ <;> omega

/-- R193: with no transaction under way P0SDO is not driven. -/
theorem Part.port0Level_idle {s : Part} (h : s.port0Phase = .idle) (clock : List Bool) : s.port0Level clock = none := by
  simp only [Part.port0Level, h]

/-- R193: in a transaction P0SDO shows the bit that follows the falling edges so far. -/
theorem Part.port0Level_driven {s : Part} (h : s.port0Phase ≠ .idle) (clock : List Bool) :
    s.port0Level clock = (s.port0Out.flatMap busBits)[fallingEdges false clock]? := by
  unfold Part.port0Level
  cases phase : s.port0Phase with
  | idle => exact absurd phase h
  | begun => rfl
  | operating => rfl

/-- R193: each byte goes out in eight bits, most significant bit first. -/
theorem Part.port0Level_byte {s : Part} (h : s.port0Phase ≠ .idle) (clock : List Bool) {b : Byte}
    (hb : s.port0Out[fallingEdges false clock / 8]? = some b) :
    s.port0Level clock = some (b.getLsbD (7 - fallingEdges false clock % 8)) := by
  have bit : fallingEdges false clock % 8 < 8 := Nat.mod_lt _ (by omega)
  have place := getElem?_flatMap_blocks busBits_length s.port0Out (fallingEdges false clock / 8) bit
  rw [Nat.div_add_mod] at place
  rw [Part.port0Level_driven h, place, hb]
  exact busBits_getElem? b bit

/-- R193: P0SDO is driven to the rise of P0CSn where a byte goes out for each that comes in, after the port status byte. -/
theorem Part.port0Level_isSome {s : Part} (h : s.port0Phase ≠ .idle) {line : List (Bool × Bool)} {n : Nat}
    (out : s.port0Out.length = n + 1) (short : (risingBits false line).length < 8 * (n + 1)) :
    (s.port0Level (line.map Prod.fst)).isSome = true := by
  have falls := fallingEdges_le false line
  rw [Bool.toNat_false, Nat.zero_add] at falls
  rw [Part.port0Level_driven h, isSome_getElem?, length_flatMap_blocks busBits_length, out]
  exact falls.trans_lt short

/-- Settles O34: the operations by their bytes, each alike in both commands that clock it, and the bits on the two lines. -/
theorem collectAndPollShiftOut : Obligations.CollectAndPollShiftOut := by
  refine ⟨fun operation bytes => ⟨rfl, rfl, fun submit collect poll => ?_⟩, ?_, ?_, fun s clock => ?_, fun line => ?_⟩
  · exact congrArg some (port0Operation_unknown submit collect poll bytes)
  · intro s n operation awake _ _ _ u
    refine ⟨?_, ?_, ?_, fun form first phase clocked => ?_⟩
    · rintro c (rfl | rfl | rfl) <;> exact State.claim_fall awake _
    · rintro c (rfl | rfl | rfl) <;> exact State.claim_rise awake _
    · rintro c (rfl | rfl | rfl) idle <;> exact State.claim_abandoned awake idle n _
    · have clocks : s.part.Clocks (form n) n first phase :=
        clocked.imp (fun ⟨rest, h⟩ => ⟨congrFun rest n, h⟩) fun ⟨whole, h⟩ => ⟨congrFun whole n, h⟩
      have collected := exec_collect awake clocks
      refine ⟨fun empty => ?_, fun f stands => ?_, fun r stands => ?_, exec_poll awake clocks,
        exec_unknownOperation awake clocks operation⟩
      · rwa [empty] at collected
      · rwa [stands] at collected
      · rwa [stands] at collected
  · intro u
    rw [PortUnit.statusByte_toNat]
    cases u.buffer <;> rfl
  · intro falls
    have edges : falls = fallingEdges false clock := (fallingEdges_eq false clock).symm
    rw [edges]
    exact ⟨fun idle => Part.port0Level_idle idle clock, fun driven b hb => Part.port0Level_byte driven clock hb⟩
  · intro taken
    have rising : risingBits false line = taken := risingBits_eq false false line
    refine ⟨fun short => ?_, fun bytes part short split => ⟨?_, fun s driven out => ?_⟩⟩
    · rw [port0Command, rising, bytesOf_short taken short]
      rfl
    · rw [port0Command, rising, split]
      exact congrArg port0Transaction (bytesOf_flatMap_busBits bytes short)
    · have size : taken.length = 8 * bytes.length + part.length := by
        rw [split, List.length_append]
        exact congrArg (· + part.length) (length_flatMap_blocks busBits_length bytes)
      refine Part.port0Level_isSome driven out ?_
      rw [rising, size]
      omega

end Sys2Proof.Machine
end

section
/-! SUPPORT. The transfers of Port 1 (R197 to R199): from the levels of P1SCL and P1SDA to the commands, what a transfer makes
of the port, and the levels at which the part leaves P1SDA. -/

namespace Sys2Proof.Machine

/-! ### Bytes with their acknowledge bits (R197) -/

/-- R197: bytes on Port 1, each followed by its acknowledge bit. -/
def ackedBits (bytes : List (Byte × Bool)) : List Bool := bytes.flatMap fun b => busBits b.1 ++ [b.2]

theorem ackedBits_length (bytes : List (Byte × Bool)) : (ackedBits bytes).length = 9 * bytes.length := by
  rw [ackedBits, length_flatMap_blocks (n := 9)]
  intro b
  rw [List.length_append, busBits_length]
  rfl

/-- R197: fewer than nine bits are no byte. -/
theorem ackedBytes_short {bits : List Bool} (h : bits.length < 9) : ackedBytes bits = [] := by
  unfold ackedBytes
  split
  · simp only [List.length_cons] at h
    omega
  · rfl

/-- R197: the bytes sent are received, with a byte that is not complete behind them. -/
theorem ackedBytes_ackedBits (bytes : List (Byte × Bool)) {part : List Bool} (h : part.length < 9) :
    ackedBytes (ackedBits bytes ++ part) = bytes := by
  induction bytes with
  | nil => exact ackedBytes_short h
  | cons b bytes ih =>
    have bits : ackedBits (b :: bytes) ++ part = busBits b.1 ++ b.2 :: (ackedBits bytes ++ part) := by
      simp [ackedBits]
    rw [bits, ackedBytes_busBits, ih]

/-- R199: a processor that acknowledges every byte is sent them all. -/
theorem bytesSent_acknowledged {data : List (Byte × Bool)} (h : ∀ b ∈ data, b.2 = false) :
    bytesSent data = data.length := by
  have all : data.takeWhile (fun b => !b.2) = data := List.takeWhile_eq_self_iff.mpr fun b hb => by simp [h b hb]
  rw [bytesSent, all]
  exact Nat.min_eq_left (Nat.le_succ _)

/-- R199, log 41: the byte that a processor answers with NACK is the last one sent. -/
theorem bytesSent_refused {before : List (Byte × Bool)} (h : ∀ b ∈ before, b.2 = false) (last : Byte)
    (after : List (Byte × Bool)) : bytesSent (before ++ (last, true) :: after) = before.length + 1 := by
  have accepted : (before ++ (last, true) :: after).takeWhile (fun b => !b.2) = before := by
    rw [List.takeWhile_append_of_pos fun b hb => by simp [h b hb]]
    simp
  rw [bytesSent, accepted, List.length_append, List.length_cons]
  omega

/-! ### The levels of P1SCL and P1SDA (R197) -/

/-- R197: the levels of P1SCL and P1SDA for these bits, P1SCL low before and after each. -/
def clockedLevels (bits : List Bool) : List (Bool × Bool) :=
  bits.flatMap fun bit => [(false, bit), (true, bit), (false, bit)]

/-- R197: P1SDA may change while P1SCL is low. -/
theorem busEvent_low (before : Bool × Bool) (sda : Bool) : busEvent before (false, sda) = none := by
  obtain ⟨scl, level⟩ := before
  cases scl <;> cases level <;> rfl

/-- R197: each bit clocked is sampled once. What follows begins with P1SCL low, so that the level before it says nothing. -/
theorem busEvents_clocked {line : List (Bool × Bool)} {events : List BusEvent}
    (h : ∀ before, busEvents before line = events) (bits : List Bool) (before : Bool × Bool) :
    busEvents before (clockedLevels bits ++ line) = bits.map .bit ++ events := by
  induction bits generalizing before with
  | nil => exact h before
  | cons bit bits ih =>
    have levels : clockedLevels (bit :: bits) ++ line =
        (false, bit) :: (true, bit) :: (false, bit) :: (clockedLevels bits ++ line) := rfl
    rw [levels, busEvents, busEvents, busEvents, ih, busEvent_low, busEvent_low]
    rfl

/-- Log 40: a stop condition, with the bit time that it needs. -/
theorem busEvents_stop (before : Bool × Bool) :
    busEvents before [(false, false), (true, false), (true, true)] = [.bit false, .stop] := by
  rw [busEvents, busEvent_low]
  rfl

/-- Log 40: a repeated start condition, with the bit time that it needs. -/
theorem busEvents_restart (line : List (Bool × Bool)) (before : Bool × Bool) :
    busEvents before ((false, true) :: (true, true) :: (true, false) :: line) =
      .bit true :: .start :: busEvents (true, false) line := by
  rw [busEvents, busEvent_low]
  rfl

/-! ### Transfers (R197, R198) -/

theorem transferBits_unended (bits : List Bool) : transferBits (bits.map .bit) = none := by
  induction bits with
  | nil => rfl
  | cons bit bits ih => rw [List.map_cons, transferBits, ih, Option.map_none]

theorem transferBits_ended {condition : BusEvent} (h : condition = .start ∨ condition = .stop) (bits : List Bool)
    (events : List BusEvent) : transferBits (bits.map .bit ++ condition :: events) = some (bits, condition) := by
  induction bits with
  | nil => obtain rfl | rfl := h <;> rfl
  | cons bit bits ih => rw [List.map_cons, List.cons_append, transferBits, ih, Option.map_some]

/-- Bits alone begin no transfer. -/
theorem port1Transfers_bits (bits : List Bool) (events : List BusEvent) :
    port1Transfers (bits.map .bit ++ events) = port1Transfers events := by
  induction bits with
  | nil => rfl
  | cons bit bits ih => rw [List.map_cons, List.cons_append, port1Transfers, ih]

/-- R197: a transfer that has not ended is no command yet. -/
theorem port1Transfers_unended (bits : List Bool) : port1Transfers (.start :: bits.map .bit) = [] := by
  have nothing := port1Transfers_bits bits []
  rw [List.append_nil] at nothing
  rw [port1Transfers, transferBits_unended, nothing]
  rfl

/-- R197: a transfer that a condition ends is the command of its bits. -/
theorem port1Transfers_ended {condition : BusEvent} (h : condition = .start ∨ condition = .stop) (bits : List Bool)
    (events : List BusEvent) : port1Transfers (.start :: (bits.map .bit ++ condition :: events)) =
      (port1Command bits condition).toList ++ port1Transfers (condition :: events) := by
  rw [port1Transfers, transferBits_ended h, port1Transfers_bits]
  rfl

/-- R197: a transfer that ends before its address byte is no command. -/
theorem port1Command_short {bits : List Bool} (h : bits.length < 9) (condition : BusEvent) :
    port1Command bits condition = none := by
  rw [port1Command, ackedBytes_short h]

/-- R198: a condition ends a transfer between two bytes, and is a bus error in the middle of one. `level` is the bit that the
condition's own rise of P1SCL makes. -/
theorem transferEnd_ackedBits (bytes : List (Byte × Bool)) {part : List Bool} (h : part.length < 8) (level : Bool)
    (condition : BusEvent) : transferEnd (ackedBits bytes ++ (part ++ [level])) condition =
      if part = [] then if condition = .start then .repeatedStart else .stop else .busError := by
  have size : (ackedBits bytes ++ (part ++ [level])).length = 9 * bytes.length + (part.length + 1) := by
    rw [List.length_append, ackedBits_length, List.length_append]
    rfl
  have between : (9 * bytes.length + (part.length + 1)) % 9 = 1 ↔ part = [] := by
    rw [← List.length_eq_zero_iff]
    omega
  simp only [transferEnd, size, ne_eq, between, ite_not]

/-- R197, R198: the command that a transfer of these bytes is. -/
theorem port1Command_ackedBits (first : Byte) (ack : Bool) (data : List (Byte × Bool)) {part : List Bool}
    (h : part.length < 8) (level : Bool) (condition : BusEvent) :
    port1Command (ackedBits ((first, ack) :: data) ++ (part ++ [level])) condition =
      some (port1Transfer first (data.map Prod.fst)
        (if part = [] then if condition = .start then .repeatedStart else .stop else .busError) (bytesSent data)) := by
  have short : (part ++ [level]).length < 9 := by
    rw [List.length_append]
    exact Nat.succ_lt_succ h
  rw [port1Command, ackedBytes_ackedBits _ short, transferEnd_ackedBits _ h]

/-! ### From the lines to the commands (R197, R198) -/

/-- R197: the levels from a start condition on. -/
theorem port1Commands_start (line : List (Bool × Bool)) :
    port1Commands ((true, true) :: (true, false) :: line) = port1Transfers (.start :: busEvents (true, false) line) := rfl

theorem port1Commands_unended (bits : List Bool) :
    port1Commands ((true, true) :: (true, false) :: clockedLevels bits) = [] := by
  have events := busEvents_clocked (line := []) (fun _ => rfl) bits (true, false)
  rw [List.append_nil, List.append_nil] at events
  rw [port1Commands_start, events, port1Transfers_unended]

/-- R197: a stop condition ends the transfer of the bits before it. -/
theorem port1Commands_stop (bits : List Bool) :
    port1Commands ((true, true) :: (true, false) ::
      (clockedLevels bits ++ [(false, false), (true, false), (true, true)])) =
      (port1Command (bits ++ [false]) .stop).toList := by
  have ended := port1Transfers_ended (Or.inr rfl) (bits ++ [false]) []
  rw [List.map_append, List.append_assoc] at ended
  rw [port1Commands_start, busEvents_clocked busEvents_stop]
  exact ended.trans (List.append_nil _)

/-- R197: a repeated start condition ends the transfer of the bits before it, and begins another. -/
theorem port1Commands_restart (bits : List Bool) (line : List (Bool × Bool)) :
    port1Commands ((true, true) :: (true, false) ::
      (clockedLevels bits ++ (false, true) :: (true, true) :: (true, false) :: line)) =
      (port1Command (bits ++ [true]) .start).toList ++ port1Commands ((true, true) :: (true, false) :: line) := by
  have ended := port1Transfers_ended (Or.inl rfl) (bits ++ [true]) (busEvents (true, false) line)
  rw [List.map_append, List.append_assoc] at ended
  rw [port1Commands_start, busEvents_clocked (busEvents_restart line)]
  exact ended

/-! ### The address byte (R197) -/

/-- R197: the target address stands above the direction bit. -/
theorem extractLsb'_address (address : BitVec 7) (direction : BitVec 1) :
    (address ++ direction).extractLsb' 1 7 = address := by
  refine BitVec.eq_of_getLsbD_eq fun i hi => ?_
  rw [BitVec.getLsbD_extractLsb', BitVec.getLsbD_append]
  simp [hi]

theorem getLsbD_direction (address : BitVec 7) (direction : BitVec 1) :
    (address ++ direction).getLsbD 0 = direction.getLsbD 0 := by
  rw [BitVec.getLsbD_append]
  rfl

/-- R197: the direction bit is 0 for a write transfer. -/
theorem port1Transfer_write (address : BitVec 7) (bytes : List Byte) (ending : TransferEnd) (n : Nat) :
    port1Transfer (address ++ 0#1) bytes ending n = .writeTransfer address bytes ending := by
  rw [port1Transfer, extractLsb'_address, getLsbD_direction]
  rfl

/-- R197: the direction bit is 1 for a read transfer. -/
theorem port1Transfer_read (address : BitVec 7) (bytes : List Byte) (ending : TransferEnd) (n : Nat) :
    port1Transfer (address ++ 1#1) bytes ending n = .readTransfer address n := by
  rw [port1Transfer, extractLsb'_address, getLsbD_direction]
  rfl

/-! ### What a transfer makes of the port (R197 to R199) -/

/-- R198: the bytes of a complete frame are taken, and what follows them is not. -/
theorem Buffer.acks_complete {bytes : List Byte} {f : RequestFrame} (h : frameOf bytes = some f) :
    Buffer.acks .empty bytes = List.replicate (5 + f.args.length) true ++
      List.replicate (bytes.length - (5 + f.args.length)) false := by
  simp [Buffer.acks, Buffer.isEmpty, framePart, h]

/-- R198: the bytes of a partial frame are all taken. -/
theorem Buffer.acks_partial {bytes : List Byte} (h : frameOf bytes = none) :
    Buffer.acks .empty bytes = List.replicate bytes.length true := by
  simp [Buffer.acks, Buffer.isEmpty, framePart, h]

/-- R198: a port that is not EMPTY takes no byte. -/
theorem Buffer.acks_busy {b : Buffer} (h : b ≠ .empty) (bytes : List Byte) :
    b.acks bytes = List.replicate bytes.length false := by
  simp [Buffer.acks, Buffer.isEmpty_of_ne h]

section Transfer
variable {s : State} {address : BitVec 7} (awake : s.part.resetLow = false)
include awake

theorem exec_writeTransfer_other (other : address ≠ s.part.port1Address) (bytes : List Byte) (ending : TransferEnd) :
    exec (.writeTransfer address bytes ending) s = .next (s.with (s.part.transfer [] [] s.part.port1.buffer)) := by
  change execWriteTransfer address bytes ending s = _
  rw [execWriteTransfer, State.claim_awake _ _ awake, if_neg other]

theorem exec_readTransfer_other (other : address ≠ s.part.port1Address) (n : Nat) :
    exec (.readTransfer address n) s = .next (s.with (s.part.transfer [] [] s.part.port1.buffer)) := by
  change execReadTransfer address n s = _
  rw [execReadTransfer, State.claim_awake _ _ awake, if_neg other]

variable (own : address = s.part.port1Address)
include own

theorem exec_writeTransfer_own (bytes : List Byte) (ending : TransferEnd) :
    exec (.writeTransfer address bytes ending) s = .next (s.with
      (s.part.transfer (true :: s.part.port1.buffer.acks bytes) [] (s.part.port1.buffer.submit bytes))) := by
  change execWriteTransfer address bytes ending s = _
  rw [execWriteTransfer, State.claim_awake _ _ awake, if_pos own]

theorem exec_readTransfer_own (n : Nat) : exec (.readTransfer address n) s = .next (s.with
    (s.part.transfer [true] (clockOut s.part.port1.buffer.outgoing n) (s.part.port1.buffer.collect n))) := by
  change execReadTransfer address n s = _
  rw [execReadTransfer, State.claim_awake _ _ awake, if_pos own]

/-- R198: a write transfer to an EMPTY port acknowledges the frame that it completes, with its address byte, and nothing
behind it. -/
theorem exec_writeTransfer_complete (empty : s.part.port1.buffer = .empty) {f : RequestFrame} {bytes : List Byte}
    (complete : frameOf bytes = some f) {extra : Nat} (size : bytes.length = 5 + f.args.length + extra)
    (ending : TransferEnd) : exec (.writeTransfer address bytes ending) s = .next (s.with (s.part.transfer
      (List.replicate (1 + 5 + f.args.length) true ++ List.replicate extra false) [] (Buffer.take f))) := by
  have count : 1 + 5 + f.args.length = 5 + f.args.length + 1 := by omega
  rw [exec_writeTransfer_own awake own, empty, Buffer.acks_complete complete, Buffer.submit_complete complete, size,
    Nat.add_sub_cancel_left, count, List.replicate_succ, List.cons_append]

/-- R198: a partial frame is acknowledged, and discarded. -/
theorem exec_writeTransfer_partial (empty : s.part.port1.buffer = .empty) {bytes : List Byte}
    (incomplete : frameOf bytes = none) (ending : TransferEnd) : exec (.writeTransfer address bytes ending) s =
      .next (s.with (s.part.transfer (List.replicate (1 + bytes.length) true) [] .empty)) := by
  rw [exec_writeTransfer_own awake own, empty, Buffer.acks_partial incomplete, Buffer.submit_partial incomplete,
    Nat.add_comm 1, List.replicate_succ]

/-- R198: a port that is not EMPTY acknowledges its address alone, and keeps what it holds. -/
theorem exec_writeTransfer_busy (busy : s.part.port1.buffer ≠ .empty) (bytes : List Byte) (ending : TransferEnd) :
    exec (.writeTransfer address bytes ending) s =
      .next (s.with (s.part.transfer (true :: List.replicate bytes.length false) [] s.part.port1.buffer)) := by
  rw [exec_writeTransfer_own awake own, Buffer.acks_busy busy, Buffer.submit_busy busy]

end Transfer

/-! ### P1SDA, bit by bit (R197) -/

/-- R197: a byte that the part receives: P1SDA is left high in its eight bits, and low in an acknowledge bit for ACK. -/
theorem Part.port1Levels_received {s : Part} {k i : Nat} (hi : i < 9) {ack : Bool} (h : s.port1Acks[k]? = some ack) :
    s.port1Levels[9 * k + i]? = some (decide (i < 8) || !ack) := by
  have size : ∀ ack : Bool, (List.replicate 8 true ++ [!ack]).length = 9 := fun _ => rfl
  obtain ⟨inside, -⟩ := List.getElem?_eq_some_iff.mp h
  rw [Part.port1Levels, List.getElem?_append_left (by rw [length_flatMap_blocks size]; omega),
    getElem?_flatMap_blocks size _ _ hi, h]
  interval_cases i <;> rfl

/-- R197: a byte that the part sends, most significant bit first; its acknowledge bit is the processor's. -/
theorem Part.port1Levels_sent {s : Part} {k i : Nat} (hi : i < 9) {b : Byte} (later : s.port1Acks.length ≤ k)
    (h : s.port1Out[k - s.port1Acks.length]? = some b) :
    s.port1Levels[9 * k + i]? = some (decide (i = 8) || b.getLsbD (7 - i)) := by
  have received : ∀ ack : Bool, (List.replicate 8 true ++ [!ack]).length = 9 := fun _ => rfl
  have sent : ∀ b : Byte, (busBits b ++ [true]).length = 9 := fun _ => rfl
  have place : 9 * k + i - 9 * s.port1Acks.length = 9 * (k - s.port1Acks.length) + i := by omega
  rw [Part.port1Levels, List.getElem?_append_right (by rw [length_flatMap_blocks received]; omega),
    length_flatMap_blocks received, place, getElem?_flatMap_blocks sent _ _ hi, h]
  interval_cases i <;> rfl

/-! ### The two lines together (R197 to R199) -/

/-- R197, R198: the bytes of a transfer as the lines carry them: no command before the transfer ends, and the one that its end
makes. -/
theorem port1Commands_ackedBits {first : Byte} {ack : Bool} {data : List (Byte × Bool)} {part : List Bool}
    (short : part.length < 8) :
    let bits := ackedBits ((first, ack) :: data) ++ part
    let command (between : TransferEnd) :=
      port1Transfer first (data.map Prod.fst) (if part = [] then between else .busError) (bytesSent data)
    port1Commands ((true, true) :: (true, false) :: clockedLevels bits) = [] ∧
      port1Commands ((true, true) :: (true, false) ::
        (clockedLevels bits ++ [(false, false), (true, false), (true, true)])) = [command .stop] ∧
      ∀ line, port1Commands ((true, true) :: (true, false) ::
        (clockedLevels bits ++ (false, true) :: (true, true) :: (true, false) :: line)) =
          command .repeatedStart :: port1Commands ((true, true) :: (true, false) :: line) := by
  refine ⟨port1Commands_unended _, ?_, fun line => ?_⟩
  · rw [port1Commands_stop, List.append_assoc, port1Command_ackedBits first ack data short]
    rfl
  · rw [port1Commands_restart, List.append_assoc, port1Command_ackedBits first ack data short]
    rfl

/-- Settles O35: the commands by the levels of the lines, the address byte, the transfers by what stands in the port, and the
levels of P1SDA. -/
theorem port1TransfersAct : Obligations.Port1TransfersAct := by
  refine ⟨?_, fun address bytes ending n => ⟨port1Transfer_write address bytes ending n,
    port1Transfer_read address bytes ending n, fun s awake => ?_⟩⟩
  · intro start clocked stop part short
    refine ⟨?_, fun first ack data sent wanted => ?_⟩
    · have noByte : (part ++ [false]).length < 9 := by
        rw [List.length_append]
        exact Nat.succ_lt_succ short
      exact (port1Commands_stop part).trans (congrArg Option.toList (port1Command_short noByte .stop))
    · have count : bytesSent data = sent := by
        obtain ⟨rfl, all⟩ | ⟨before, last, after, rfl, all, rfl⟩ := wanted
        · exact bytesSent_acknowledged all
        · exact bytesSent_refused all last after
      subst count
      intro bits begun command
      obtain ⟨unended, stopped, restarted⟩ := port1Commands_ackedBits (first := first) (ack := ack) (data := data) short
      refine ⟨unended, stopped, fun line => ?_⟩
      rw [List.append_assoc]
      exact restarted line
  · intro u after write read
    refine ⟨fun other => ⟨exec_writeTransfer_other awake other bytes ending, exec_readTransfer_other awake other n⟩,
      fun own => ?_, fun k i hi => ⟨fun ack => Part.port1Levels_received hi, fun b => Part.port1Levels_sent hi⟩⟩
    have collected := exec_readTransfer_own awake own n
    refine ⟨fun empty => ⟨?_, fun incomplete => ?_, ?_⟩, fun busy => ?_, fun f stands => ?_, fun r stands => ?_⟩
    · intro code sequence high low k args extra size split f passes acks
      have complete : frameOf bytes = some f := split ▸ frameOf_complete code sequence high low size extra
      have length : bytes.length = 5 + f.args.length + extra.length := by
        simp only [split, f, List.length_cons, List.length_append]
        omega
      have taken := exec_writeTransfer_complete awake own empty complete length ending
      constructor
      · intro good
        rwa [Buffer.take_admitted (f.admitted_iff.mpr good)] at taken
      · intro bad
        rwa [Buffer.take_rejected (mt f.admitted_iff.mp bad)] at taken
    · exact exec_writeTransfer_partial awake own empty (frameOf_partial incomplete) ending
    · rwa [empty] at collected
    · exact exec_writeTransfer_busy awake own busy bytes ending
    · rwa [stands] at collected
    · rwa [stands] at collected

end Sys2Proof.Machine
end

section
/-! SUPPORT. Steps: where a command may act. Every command is one action on the part, and the queue is out of its reach. -/

namespace Sys2Proof.Machine

/-- A command is a claim, taken only with RESETn high, or one of the four that act on the part at any level of RESETn. -/
theorem exec_claim_or_acts (c : Instr) :
    (∃ f, ∀ s, exec c s = s.claim f) ∨ ∃ f : Part → Part, ∀ s, exec c s = .next (s.with (f s.part)) := by
  cases c
  case reset | powerOn => exact Or.inr ⟨Part.heldInReset, fun _ => rfl⟩
  case resetRelease adr => exact Or.inr ⟨(·.riseFromReset adr), fun _ => rfl⟩
  case supplyFault g level => exact Or.inr ⟨(·.supply g level), fun _ => rfl⟩
  all_goals
    dsimp only [exec]
    exact Or.inl ⟨_, fun _ => rfl⟩

/-- Whatever the command and the state, the outcome is a next state that differs in the part alone. -/
theorem exec_next (c : Instr) (s : State) : ∃ t, exec c s = .next (s.with t) := by
  obtain ⟨f, claimed⟩ | ⟨f, acts⟩ := exec_claim_or_acts c
  · exact ⟨_, (claimed s).trans (s.claim_next f)⟩
  · exact ⟨_, acts s⟩

/-- Settles O2: a command changes the part alone. -/
theorem everyCommandAnswers : Obligations.EveryCommandAnswers := by
  intro c s
  obtain ⟨t, answers⟩ := exec_next c s
  exact ⟨s.with t, answers, s.with_pending t⟩

/-- Settles O1: the two cases of a step, by the queue. -/
theorem stepTakesFrontOfQueue : Obligations.StepTakesFrontOfQueue :=
  ⟨fun c s => step_front { s with pending := c :: s.pending } c s.pending rfl, step_idle⟩

end Sys2Proof.Machine
end
